-- ==== Sys2Proof/Word.lean ====
section
/-! DEFINITION. The words of the machine: what the spec treats as bits (00_scope R10). -/

namespace Sys2Proof

/-- One byte: a character, a payload byte, a byte of the font blob (R66, R97). -/
abbrev Byte := BitVec 8

/-- A host-port data word, and a row word of `W` bits held in the low end (20_memory R64, R68). -/
abbrev Word := BitVec 16

/-- A host-port word address (20_memory R60). -/
abbrev Addr := BitVec 8

/-- A row operand, `r = ADDR[3:0]` (30_encoding R93). -/
abbrev RowIx := BitVec 4

/-- A form H transaction word `T[24:0]` (30_encoding R91). -/
abbrev Trans := BitVec 25

/-- The shift chain and its output register, `2W` bits held in the low end (10_state R38, R39). -/
abbrev Chain := BitVec 32

end Sys2Proof
end

