-- ==== Sys2Proof/Config.lean ====
section
/-! DEFINITION. What one machine fixes before reset is released (00_scope R8, R9), and the free values. -/

namespace Sys2Proof

/-- The two legal geometries (R8: "Only the geometry pairs (8, 8) and (16, 16) are legal"). -/
inductive Geometry where
  | g8
  | g16
deriving DecidableEq, Repr

/-- `W`, the panel width; `H = W` (R8). -/
def Geometry.w : Geometry → Nat
  | .g8 => 8
  | .g16 => 16

/-- `H`, the number of rows; `H = W` (R8). -/
abbrev Geometry.h (g : Geometry) : Nat := g.w

/-- The base producers a mode identifier selects (45_host_producers R239). -/
inductive Mode where
  | animation
  | scrollingText
  | staticText
deriving DecidableEq, Repr

/-- A glyph record (45_host_producers R216); only the two offsets are signed. -/
structure Glyph where
  code : Nat
  width : Nat
  height : Nat
  xOffset : Int
  yOffset : Int
  xAdvance : Nat
  bitOffset : Nat
deriving DecidableEq, Repr

/-- A font table (45_host_producers R217): range, glyph array, packed bitmap blob. -/
structure Font where
  first : Nat
  last : Nat
  glyphs : List Glyph
  blob : List Byte
deriving DecidableEq, Repr

/-- The host-environment parameters (00_scope R9), and which of the two animation paths the host takes
(45_host_producers R238: `directAnim = false` is the spec's default host). -/
structure HostParams where
  font : Font
  msgCap : Nat
  intervalMin : Nat
  intervalMax : Nat
  overlayMs : Nat
  textY : Int
  staticX : Int
  staticY : Int
  overlayX : Int
  overlayY : Int
  idleMs : Nat
  modeInit : Mode
  msgInit : List Byte
  intervalInit : Nat
  directAnim : Bool
deriving DecidableEq, Repr

/-- The block's parameters (00_scope R8). `pattern` holds one natural below `2^sw` for each row. -/
structure Config where
  geo : Geometry
  b : Nat
  sw : Nat
  pattern : List Nat
  scrollInit : Nat
  resetDispEn : Bool
  hasDirectAnim : Bool
  tickPeriod : Nat
  syncStages : Nat
  host : HostParams
deriving DecidableEq, Repr

/-- The two-glyph font of 95_test_vectors 2.6. DESIGN CHOICE (notes/assumptions/2): the font is open. -/
def Font.illustrative : Font where
  first := 0x41
  last := 0x42
  glyphs := [
    { code := 0x41, width := 3, height := 3, xOffset := 0, yOffset := -2, xAdvance := 4, bitOffset := 0 },
    { code := 0x42, width := 2, height := 2, xOffset := 1, yOffset := -1, xAdvance := 3, bitOffset := 9 }]
  blob := [0x5E#8, 0xF0#8]

/-- DESIGN CHOICE (notes/assumptions/2): R9 leaves all of these open; the values are the illustrative ones of
95_test_vectors 2.5 and 2.6 where it has any. -/
def HostParams.illustrative : HostParams where
  font := Font.illustrative
  msgCap := 4
  intervalMin := 20
  intervalMax := 220
  overlayMs := 1000
  textY := 4
  staticX := 0
  staticY := 4
  overlayX := 0
  overlayY := 4
  idleMs := 10
  modeInit := .animation
  msgInit := []
  intervalInit := 120
  directAnim := false

/-- The default 8×8 machine of decision D21. PATTERN (all unlit), TICK_PERIOD and the host parameters are open
there: DESIGN CHOICE (notes/assumptions/2). -/
def Config.default : Config where
  geo := .g8
  b := 2
  sw := 32
  pattern := [0xFFFFFFFF, 0xFFFFFFFF, 0xFFFFFFFF, 0xFFFFFFFF, 0xFFFFFFFF, 0xFFFFFFFF, 0xFFFFFFFF, 0xFFFFFFFF]
  scrollInit := 0
  resetDispEn := true
  hasDirectAnim := true
  tickPeriod := 1
  syncStages := 0
  host := HostParams.illustrative

/-- The default 16×16 machine of decision D21: `B = 0`, the rest as for 8×8; PATTERN as there (notes/assumptions/2). -/
def Config.default16 : Config :=
  { Config.default with geo := .g16, b := 0, pattern := List.replicate 16 0xFFFFFFFF }

/-- The defaults of decision D21 for a geometry (00_scope R8). -/
def Config.defaultFor : Geometry → Config
  | .g8 => Config.default
  | .g16 => Config.default16

/-- FREE VALUE (notes/assumptions/4): what the external shift registers hold after RESET, a fresh value for each
index (10_state R47, 93 V1: any value). -/
opaque Config.freeChain : Nat → Chain

/-- FREE VALUE (notes/assumptions/5): what `hp_rdata` shows after RESET, before the next read. -/
opaque Config.freeRead : Nat → Word

/-- FREE VALUE (notes/assumptions/11): what RD_SCROLL returns for an index that 16 bits cannot hold. -/
opaque Config.wideScroll : Nat → Word

/-- FREE VALUE (notes/assumptions/23): a bit past the end of the font blob. -/
opaque Config.pastBlob : Nat → Bool

/-- FREE VALUE (notes/assumptions/12): the polarity of the auxiliary pin (44_bus_commands R205: not in the source). -/
opaque Config.auxPolarity : Bool

end Sys2Proof
end

