-- ==== Sys2Proof/Syntax.lean ====
section
/-! DEFINITION. The instructions: one constructor for each row of spec/opcode_table.json (30_encoding R102),
and the encoded forms they arrive in (30_encoding R90). -/

namespace Sys2Proof

/-- The operations of the block and of its host environment. On a write `data` is the whole of `DATA`; on a
read `DATA` is ignored (R91) and is no operand. A `none` payload byte is a byte that was not received (R98). -/
inductive Instr where
  /-- R122 -/
  | wrCtrl (data : Word)
  /-- R123 -/
  | rdCtrl
  /-- R124 -/
  | wrCommit (data : Word)
  /-- R125 -/
  | rdCommit
  /-- R126; `data` is ignored -/
  | wrScroll (data : Word)
  /-- R127 -/
  | rdScroll
  /-- R120 -/
  | wrStage (r : RowIx) (data : Word)
  /-- R121 -/
  | rdStage (r : RowIx)
  /-- R128 -/
  | rdVrow (r : RowIx)
  /-- R129: a write that no other row takes -/
  | wrIgnored (addr : Addr) (data : Word)
  /-- R129: a read that no other row takes -/
  | rdZero (addr : Addr)
  /-- R140 -/
  | tick
  /-- R290 -/
  | reset
  /-- R201 -/
  | setDisplay (b : Option Byte)
  /-- R202 -/
  | setMessage (text : List Byte)
  /-- R203 -/
  | setScrollSpeed (speed : Option Byte)
  /-- R204 -/
  | setDisplayMode (modeId : Option Byte)
  /-- R206 -/
  | showTempMessage (text : List Byte)
  /-- R207 -/
  | unknownCommand (opcode : Byte) (payload : List Byte)
deriving DecidableEq, Repr

/-- An operation as it arrives (R90): form H, form B, and the two events of form E. (Form S, the serial frame, is
what a tick sends; it is no operation.) -/
inductive Form where
  | word (t : Trans)
  | bus (bytes : List Byte)
  | tickReq
  | rst
deriving DecidableEq, Repr

end Sys2Proof
end

