-- ==== Sys2Proof/WellFormed.lean ====
section
/-! DEFINITION. Which instructions the encoding admits for a geometry (30_encoding R92, R97). -/

namespace Sys2Proof

/-- `ADDR` lies in the window of `H` words that starts at `base` (20_memory R62). -/
def inWindow (g : Geometry) (base : Nat) (a : Addr) : Bool :=
  decide (base ≤ a.toNat) && decide (a.toNat < base + g.h)

/-- A payload text holds no newline, which would end it (R97). -/
def textWellFormed (text : List Byte) : Bool := text.all (fun c => c != 0x0A#8)

/-- A row operand is below `H`; a catch-all takes only what no other row takes; a text has no newline; an unknown
opcode is `0x05..0xFF`. -/
def Instr.wellFormed (g : Geometry) : Instr → Bool
  | .wrCtrl _ => true
  | .rdCtrl => true
  | .wrCommit _ => true
  | .rdCommit => true
  | .wrScroll _ => true
  | .rdScroll => true
  | .wrStage r _ => decide (r.toNat < g.h)
  | .rdStage r => decide (r.toNat < g.h)
  | .rdVrow r => decide (r.toNat < g.h)
  | .wrIgnored a _ => decide (2 < a.toNat) && !inWindow g 0x10 a
  | .rdZero a => decide (2 < a.toNat) && !inWindow g 0x10 a && !inWindow g 0x20 a
  | .tick => true
  | .reset => true
  | .setDisplay _ => true
  | .setMessage text => textWellFormed text
  | .setScrollSpeed _ => true
  | .setDisplayMode _ => true
  | .showTempMessage text => textWellFormed text
  | .unknownCommand op _ => decide (5 ≤ op.toNat)

end Sys2Proof
end

