-- ==== Sys2Proof/Decode.lean ====
section
/-! DEFINITION. From an encoded form to an instruction (30_encoding R91 to R98), and back; the opcode table as
masks and patterns (R102). -/

namespace Sys2Proof

/-- Why an encoded form is no operation. -/
inductive DecodeError where
  /-- a bus command with no opcode byte -/
  | noOpcode
deriving DecidableEq, Repr

/-- `T[24]`, 1 = write (R91). -/
def Trans.rw (t : Trans) : Bool := t.getLsbD 24

/-- `T[23:16]` (R91). -/
def Trans.addr (t : Trans) : Addr := t.extractLsb' 16 8

/-- `T[15:0]` (R91). -/
def Trans.data (t : Trans) : Word := t.extractLsb' 0 16

/-- The transaction word `{RW, ADDR, DATA}` (R91). -/
def mkTrans (rw : Bool) (addr : Addr) (data : Word) : Trans := BitVec.ofBool rw ++ addr ++ data

/-- `ADDR[3:0]` (R93). -/
def rowOf (a : Addr) : RowIx := a.extractLsb' 0 4

/-- `ADDR[7:4] = page` and `ADDR[3:0] < H`: for `H = 8` the second half of a window falls out (R92). -/
def rowWindow (g : Geometry) (page : RowIx) (a : Addr) : Bool :=
  a.extractLsb' 4 4 == page && decide ((rowOf a).toNat < g.h)

/-- The write rows of the form H opcode map, in the order given (R92). -/
def decodeWrite (g : Geometry) (a : Addr) (d : Word) : Instr :=
  if a = 0x00#8 then .wrCtrl d
  else if a = 0x01#8 then .wrCommit d
  else if a = 0x02#8 then .wrScroll d
  else if rowWindow g 1#4 a then .wrStage (rowOf a) d
  else .wrIgnored a d

/-- The read rows of the form H opcode map, in the order given (R92). -/
def decodeRead (g : Geometry) (a : Addr) : Instr :=
  if a = 0x00#8 then .rdCtrl
  else if a = 0x01#8 then .rdCommit
  else if a = 0x02#8 then .rdScroll
  else if rowWindow g 1#4 a then .rdStage (rowOf a)
  else if rowWindow g 2#4 a then .rdVrow (rowOf a)
  else .rdZero a

/-- Form H: every 25-bit word is one operation (R92). -/
def decodeWord (g : Geometry) (t : Trans) : Instr :=
  if t.rw then decodeWrite g t.addr t.data else decodeRead g t.addr

/-- A payload text: the bytes up to, and not including, the first newline, or to the end of the buffer (R97). -/
def decodeText (payload : List Byte) : List Byte := payload.takeWhile (fun c => c != 0x0A#8)

/-- Form B: the opcode byte selects the command (R96, R97). Bytes after a one-byte payload are not looked at:
DESIGN CHOICE (notes/assumptions/15). -/
def decodeBus : List Byte → Except DecodeError Instr
  | [] => .error .noOpcode
  | op :: payload =>
    if op = 0x00#8 then .ok (.setDisplay payload.head?)
    else if op = 0x01#8 then .ok (.setMessage (decodeText payload))
    else if op = 0x02#8 then .ok (.setScrollSpeed payload.head?)
    else if op = 0x03#8 then .ok (.setDisplayMode payload.head?)
    else if op = 0x04#8 then .ok (.showTempMessage (decodeText payload))
    else .ok (.unknownCommand op payload)

/-- Every encoded form, to its operation or to the reason there is none. -/
def decode (g : Geometry) : Form → Except DecodeError Instr
  | .word t => .ok (decodeWord g t)
  | .bus bytes => decodeBus bytes
  | .tickReq => .ok .tick
  | .rst => .ok .reset

/-- Raw strobes of the host port as a transaction word: neither is no operation, both is a write (20_memory R61). -/
def wordOfStrobes (we re : Bool) (a : Addr) (d : Word) : Option Trans :=
  if we then some (mkTrans true a d) else if re then some (mkTrans false a d) else none

/-! The encoder: the words of R100 and the bytes of R96. A read's `DATA` is 0 in canonical form (R91). -/

/-- A one-byte payload, or none. -/
def encodeByte : Option Byte → List Byte
  | some b => [b]
  | none => []

/-- The canonical encoded form of an instruction (R96, R100). -/
def encode : Instr → Form
  | .wrCtrl d => .word (mkTrans true 0x00#8 d)
  | .rdCtrl => .word (mkTrans false 0x00#8 0#16)
  | .wrCommit d => .word (mkTrans true 0x01#8 d)
  | .rdCommit => .word (mkTrans false 0x01#8 0#16)
  | .wrScroll d => .word (mkTrans true 0x02#8 d)
  | .rdScroll => .word (mkTrans false 0x02#8 0#16)
  | .wrStage r d => .word (mkTrans true (0x10#8 + r.zeroExtend 8) d)
  | .rdStage r => .word (mkTrans false (0x10#8 + r.zeroExtend 8) 0#16)
  | .rdVrow r => .word (mkTrans false (0x20#8 + r.zeroExtend 8) 0#16)
  | .wrIgnored a d => .word (mkTrans true a d)
  | .rdZero a => .word (mkTrans false a 0#16)
  | .tick => .tickReq
  | .reset => .rst
  | .setDisplay b => .bus (0x00#8 :: encodeByte b)
  | .setMessage text => .bus (0x01#8 :: text ++ [0x0A#8])
  | .setScrollSpeed s => .bus (0x02#8 :: encodeByte s)
  | .setDisplayMode m => .bus (0x03#8 :: encodeByte m)
  | .showTempMessage text => .bus (0x04#8 :: text ++ [0x0A#8])
  | .unknownCommand op payload => .bus (op :: payload)

/-! The machine-readable table (R102): masks and patterns over the 25-bit word, in priority order. -/

/-- One form H row of spec/opcode_table.json; the `STAGE` and `VROW` rows have one more mask bit for `H = 8`. -/
structure TableRow where
  mnemonic : String
  pattern : Trans
  mask : Trans
  mask8 : Trans
deriving DecidableEq, Repr

/-- The eleven form H rows of spec/opcode_table.json, in the order of their `priority`. -/
def opcodeTable : List TableRow := [
  { mnemonic := "WR_CTRL", pattern := 0x1000000#25, mask := 0x1FF0000#25, mask8 := 0x1FF0000#25 },
  { mnemonic := "RD_CTRL", pattern := 0x0000000#25, mask := 0x1FF0000#25, mask8 := 0x1FF0000#25 },
  { mnemonic := "WR_COMMIT", pattern := 0x1010000#25, mask := 0x1FF0000#25, mask8 := 0x1FF0000#25 },
  { mnemonic := "RD_COMMIT", pattern := 0x0010000#25, mask := 0x1FF0000#25, mask8 := 0x1FF0000#25 },
  { mnemonic := "WR_SCROLL", pattern := 0x1020000#25, mask := 0x1FF0000#25, mask8 := 0x1FF0000#25 },
  { mnemonic := "RD_SCROLL", pattern := 0x0020000#25, mask := 0x1FF0000#25, mask8 := 0x1FF0000#25 },
  { mnemonic := "WR_STAGE", pattern := 0x1100000#25, mask := 0x1F00000#25, mask8 := 0x1F80000#25 },
  { mnemonic := "RD_STAGE", pattern := 0x0100000#25, mask := 0x1F00000#25, mask8 := 0x1F80000#25 },
  { mnemonic := "RD_VROW", pattern := 0x0200000#25, mask := 0x1F00000#25, mask8 := 0x1F80000#25 },
  { mnemonic := "WR_IGNORED", pattern := 0x1000000#25, mask := 0x1000000#25, mask8 := 0x1000000#25 },
  { mnemonic := "RD_ZERO", pattern := 0x0000000#25, mask := 0x1000000#25, mask8 := 0x1000000#25 }]

/-- The row's mask for a geometry. -/
def TableRow.maskFor (row : TableRow) : Geometry → Trans
  | .g8 => row.mask8
  | .g16 => row.mask

/-- The first row whose pattern the word meets under its mask (R102: "Rows are tried in the order given"). -/
def tableRowOf (g : Geometry) (t : Trans) : Option TableRow :=
  opcodeTable.find? (fun row => (t &&& row.maskFor g) == row.pattern)

/-- The table's mnemonic of an instruction. -/
def Instr.mnemonic : Instr → String
  | .wrCtrl _ => "WR_CTRL"
  | .rdCtrl => "RD_CTRL"
  | .wrCommit _ => "WR_COMMIT"
  | .rdCommit => "RD_COMMIT"
  | .wrScroll _ => "WR_SCROLL"
  | .rdScroll => "RD_SCROLL"
  | .wrStage _ _ => "WR_STAGE"
  | .rdStage _ => "RD_STAGE"
  | .rdVrow _ => "RD_VROW"
  | .wrIgnored _ _ => "WR_IGNORED"
  | .rdZero _ => "RD_ZERO"
  | .tick => "TICK"
  | .reset => "RESET"
  | .setDisplay _ => "setDisplay"
  | .setMessage _ => "setMessage"
  | .setScrollSpeed _ => "setScrollSpeed"
  | .setDisplayMode _ => "setDisplayMode"
  | .showTempMessage _ => "showTempMessage"
  | .unknownCommand _ _ => "unknownCommand"

/-! Words numbered as spec/opcode_table.json numbers them (notes/assumptions/20). -/

/-- `n` bytes of `w`, the least significant first. -/
def bytesOf : Nat → Nat → List Byte
  | 0, _ => []
  | n + 1, w => BitVec.ofNat 8 w :: bytesOf n (w / 256)

/-- The form a table word stands for. A row of 25 bits (32 in whole bytes) is form H, and a bit above bit 24 is no bit
of it; every other length is form B, an opcode byte and at least one payload byte, zero where the table gives it no
bits. -/
def formOfTableWord (nbits w : Nat) : Option Form :=
  if 25 ≤ nbits ∧ nbits ≤ 32 then
    if w < 2 ^ 25 then some (.word (BitVec.ofNat 25 w)) else none
  else if nbits = 0 then none
  else some (.bus (bytesOf (max 2 ((nbits + 7) / 8)) w))

/-- What the decoder reads from a table word, for the default geometry. -/
def decodeTableWord (nbits w : Nat) : Option Instr :=
  match formOfTableWord nbits w with
  | none => none
  | some f =>
    match decode Config.default.geo f with
    | .ok i => some i
    | .error _ => none

end Sys2Proof
end

