-- ==== Sys2Proof/Machine/Font.lean ====
section
/-! DEFINITION. FontTable and Rasterizer as functions of the configuration (45_host_producers R216 to R223): what a
text measures and which pixels it plots. -/

namespace Sys2Proof.Machine

/-- Bit `k` of the blob: bit `7 - (k mod 8)` of byte `floor(k / 8)` (20_memory R66). A glyph whose bits run past the
blob "draws wrong pixels and harms nothing else" (R218): which pixels is a free value (notes/assumptions/23). -/
def blobBit (f : Font) (k : Nat) : Bool :=
  match f.blob[k / 8]? with
  | some byte => byte.getLsbD (7 - k % 8)
  | none => Config.pastBlob k

/-- The glyph of a code inside `[first, last]`; a code outside has none (R217). -/
def glyphOf (f : Font) (c : Byte) : Option Glyph :=
  if f.first ≤ c.toNat ∧ c.toNat ≤ f.last then f.glyphs[c.toNat - f.first]? else none

/-- R219: "a missing glyph is a zero-width no-op, never an error". -/
def charWidth (f : Font) (c : Byte) : Nat :=
  match glyphOf f c with
  | some g => g.xAdvance
  | none => 0

/-- R220: the sum of `charWidth` over every character; 0 for the empty string. -/
def textWidth (f : Font) (text : List Byte) : Nat := (text.map (charWidth f)).sum

/-- The pixels of one glyph row, left to right, for a glyph whose cursor is at `(x, y)` (R221). -/
def glyphRowPixels (f : Font) (g : Glyph) (x y : Int) (row : Nat) : List (Int × Int) :=
  (List.range g.width).filterMap fun col =>
    if blobBit f (g.bitOffset + row * g.width + col) then
      some (x + g.xOffset + col, y + g.yOffset + row)
    else none

/-- The pixels `drawChar` plots, in the order it plots them, before clipping (R221). -/
def charPixels (f : Font) (x y : Int) (c : Byte) : List (Int × Int) :=
  match glyphOf f c with
  | some g => (List.range g.height).flatMap (glyphRowPixels f g x y)
  | none => []

/-- The loop of `drawString` from cursor `cx`: it stops once the cursor reaches `maxX`, and every character drawn
advances the cursor, clipped or not (R222, R223; 90_conflicts C6). -/
def stringPixelsFrom (f : Font) (y maxX : Int) : Int → List Byte → List (Int × Int)
  | _, [] => []
  | cx, c :: cs =>
    if maxX ≤ cx then []
    else charPixels f cx y c ++ stringPixelsFrom f y maxX (cx + charWidth f c) cs

/-- The pixels `drawString` plots, before clipping; none at all when `y` is outside `[0, maxY)` (R222). -/
def stringPixels (f : Font) (x y maxX maxY : Int) (text : List Byte) : List (Int × Int) :=
  if y < 0 ∨ maxY ≤ y then [] else stringPixelsFrom f y maxX x text

end Sys2Proof.Machine
end

