-- ==== Sys2Proof/Machine/State.lean ====
section
/-! DEFINITION. The state of the machine: the block (10_state), the host environment (45_host_producers) and the
inputs still to come (20_memory R71); what it holds right after reset; the reasons a step can stop. -/

namespace Sys2Proof.Machine

/-- One step MainFlow has still to take inside a routine: a host-port operation of 30_encoding R101, whose data may
come from the value `t` the last read returned, or an update of a variable of its own. -/
inductive MainOp where
  /-- `WR_STAGE r, v` -/
  | wrStage (r : RowIx) (v : Word)
  /-- `t = RD_STAGE r` -/
  | rdStage (r : RowIx)
  /-- `t = RD_VROW r` -/
  | rdVrow (r : RowIx)
  /-- `t = RD_CTRL` -/
  | rdCtrl
  /-- `WR_CTRL ((t and keep) or set)` -/
  | wrCtrlBack (keep set : Word)
  /-- `WR_STAGE r, ((t and keep) or set)` -/
  | wrStageBack (r : RowIx) (keep set : Word)
  /-- `COMMIT`, that is `WR_COMMIT 1` -/
  | commit
  /-- `ADVANCE`, that is `WR_SCROLL 0` -/
  | advance
  /-- `overlay_active <- 1 ; overlay_start_ms <- now_ms` (R234) -/
  | overlayShown
  /-- `changed <- 0` (R230) -/
  | staticDrawn
deriving DecidableEq, Repr

/-- One event of the environment (notes/assumptions/6). -/
inductive Input where
  /-- an operation in its encoded form: a host-port word, a bus command, a pulse on `tick_req` or `rst` -/
  | op (f : Form)
  /-- one cycle of the host-port signals `hp_we`, `hp_re`, `hp_addr`, `hp_wdata` (20_memory R61) -/
  | cycle (we re : Bool) (addr : Addr) (data : Word)
  /-- a bus read request (44_bus_commands R205) -/
  | busRead
  /-- one iteration of the main loop with no command to dispatch (45_host_producers R242) -/
  | loop
  /-- MainFlow takes the next step of its running routine -/
  | go
  /-- the millisecond clock now shows `ms` (45_host_producers R241) -/
  | clock (ms : Nat)
  /-- the auxiliary input pin is now at `level` (44_bus_commands R205) -/
  | aux (level : Bool)
deriving DecidableEq, Repr

/-- The panel side of the pins (10_state R38 to R40): `SR`, `Q`, `SER`, `SCLK`, `LATCH`. -/
structure Panel where
  sr : Chain
  q : Chain
  ser : Bool
  sclk : Bool
  latch : Bool
deriving DecidableEq, Repr

/-- A message (45_host_producers R225): its text, its cached width, its signed cursor. -/
structure Message where
  text : List Byte
  width : Nat
  cursor : Int
deriving DecidableEq, Repr

/-- The state MainFlow software keeps outside the block (10_state R45; 45_host_producers R225, R232, R233, R239).
`pending` is what its running routine has still to do (notes/assumptions/7). -/
structure HostEnv where
  msg : Message
  changed : Bool
  mode : Mode
  overlayActive : Bool
  overlayStartMs : Nat
  overlayText : List Byte
  intervalMs : Nat
  lastDrawMs : Nat
  pending : List MainOp
deriving DecidableEq, Repr

/-- The state. `cfg` is fixed for a machine (00_scope R8; notes/assumptions/1). `OE_N` and `hp_ready` are computed
from it (Machine/Ops.lean). -/
structure State where
  cfg : Config
  /-- `STAGE[0..H-1]` (R21) -/
  stage : List Word
  /-- `ACTIVE[0..H-1]` (R22) -/
  active : List Word
  /-- `ROW` (R24) -/
  row : Nat
  /-- `BLANK` (R25) -/
  blank : Nat
  /-- `CREQ` (R27) -/
  creq : Bool
  /-- `DISP_EN` (R28) -/
  dispEn : Bool
  /-- `SRC` (R29) -/
  src : Bool
  /-- `SCROLL_IDX` (R33) -/
  scrollIdx : Nat
  /-- `TICK_PEND` (R42) -/
  tickPend : Bool
  /-- `SR`, `Q`, `SER`, `SCLK`, `LATCH` (R38 to R40) -/
  panel : Panel
  /-- `hp_rdata` (R61), the `t` of R101: the value the last read returned -/
  hpRdata : Word
  /-- the host environment (R45) -/
  host : HostEnv
  /-- the events to come, oldest first (R71) -/
  inputs : List Input
  /-- the millisecond clock as last supplied (R241) -/
  nowMs : Nat
  /-- the level of the auxiliary input pin (R205) -/
  auxPin : Bool
  /-- the status byte the last bus read returned (R205) -/
  busReply : Byte
  /-- the model's own: how many free values have been drawn (notes/assumptions/4) -/
  freeCtr : Nat
deriving DecidableEq, Repr

/-- Faults: none. "The block raises no synchronous exception" and "every operation of files 40 to 43 is total"
(60_exceptions R260), so nothing raises one. -/
inductive Fault where
deriving DecidableEq, Repr

/-- Why a step has no meaning. -/
inductive Refusal where
  /-- raised by an arm of `exec` whose instruction has no meaning yet: safe -/
  | notModelled (mnemonic : String)
  /-- raised by `step` for a parameter combination outside 00_scope R8 and R9, to which "the spec gives [...] no
  meaning" (93_implementation_defined V8: `refuse`): safe (notes/assumptions/10) -/
  | illegalConfig
deriving DecidableEq, Repr

/-- The outcome of a step of this machine. -/
abbrev Result := Host.Outcome State Fault Refusal

/-- The machine right after reset: 10_state R47 and 70_reset R293, for the default configuration of decision D21.
`SR`, `Q`, `hp_rdata`, the overlay's text and start, the clock, the pin and the reply have no reset value in the spec:
DESIGN CHOICE zero or empty (notes/assumptions/3, 5, 16); `freeCtr` is the model's own. -/
def State.reset : State where
  cfg := Config.default
  stage := [0, 0, 0, 0, 0, 0, 0, 0]
  active := [0, 0, 0, 0, 0, 0, 0, 0]
  row := 0
  blank := 2
  creq := false
  dispEn := true
  src := false
  scrollIdx := 0
  tickPend := false
  panel := { sr := 0, q := 0, ser := false, sclk := false, latch := true }
  hpRdata := 0
  host := {
    msg := { text := [], width := 0, cursor := 8 }
    changed := true
    mode := .animation
    overlayActive := false
    overlayStartMs := 0
    overlayText := []
    intervalMs := 120
    lastDrawMs := 0
    pending := [] }
  inputs := []
  nowMs := 0
  auxPin := false
  busReply := 0
  freeCtr := 0

end Sys2Proof.Machine
end

