-- ==== Sys2Proof/Machine/Operands.lean ====
section
/-! DEFINITION. Operand forms (30_encoding R93, R97): what an operation takes from its data word or its payload. -/

namespace Sys2Proof.Machine

/-- `ones(N)` in a data word (00_scope R10). -/
def ones (n : Nat) : Word := BitVec.ofNat 16 (2 ^ n - 1)

/-- `~_N(v)`: the complement within exactly `N` bits (00_scope R10, 41 R152). -/
def compl (n : Nat) (v : Word) : Word := ~~~v &&& ones n

/-- Row data: `DATA[W-1:0]`, the upper bits discarded (R93, 20_memory R68). -/
def rowData (g : Geometry) (data : Word) : Word := data &&& ones g.w

/-- `DATA[0]`: `DISP_EN` on a `CTRL` write, the set bit on a `COMMIT` write (R93). -/
def dataBit0 (data : Word) : Bool := data.getLsbD 0

/-- `DATA[1]`: `SRC` on a `CTRL` write (R93). -/
def dataBit1 (data : Word) : Bool := data.getLsbD 1

/-- One bit of a read result, zero-extended (R93: "Read results are zero-extended to 16 bits"). -/
def bitWord (b : Bool) : Word := (BitVec.ofBool b).zeroExtend 16

/-- A one-byte bool: 0 is false, any other value true (R97). -/
def boolPayload (b : Byte) : Bool := b != 0

/-- A text operand: the first `MSG_CAP` characters (R97, 45 R226). -/
def capText (c : Config) (text : List Byte) : List Byte := text.take c.host.msgCap

/-- The draw interval of a speed byte, values above 100 clamped to 100 (R97, 44 R203). -/
def speedInterval (c : Config) (s : Byte) : Nat :=
  c.host.intervalMax - min s.toNat 100 * (c.host.intervalMax - c.host.intervalMin) / 100

/-- The mode identifiers: 0 Animation, 1 ScrollingText, 2 StaticText, others ignored (R97, 44 R204). -/
def modeOfId (m : Byte) : Option Mode :=
  if m = 0#8 then some .animation
  else if m = 1#8 then some .scrollingText
  else if m = 2#8 then some .staticText
  else none

end Sys2Proof.Machine
end

