-- ==== Sys2Proof/Machine/Flags.lean ====
section
/-! DEFINITION. The flags and how they are written (10_state R27 to R32). There are no condition codes (R30). -/

namespace Sys2Proof.Machine

/-- `DISP_EN` and `SRC` from a `CTRL` write; `SRC` stays 0 when `HAS_DIRECT_ANIM` is false (R31, 40 R122). -/
def writeCtrlFlags (data : Word) (s : State) : State :=
  { s with dispEn := dataBit0 data, src := s.cfg.hasDirectAnim && dataBit1 data }

/-- `CREQ` on a `COMMIT` write: 1 sets, 0 has no effect (R32, 40 R124). -/
def requestCommit (data : Word) (s : State) : State :=
  { s with creq := s.creq || dataBit0 data }

/-- The `CTRL` register as a read shows it: `{0[13:0], SRC, DISP_EN}` (R31, 40 R123). -/
def ctrlWord (s : State) : Word := (bitWord s.src <<< 1) ||| bitWord s.dispEn

/-- The `COMMIT` register as a read shows it: `{0[14:0], CREQ}` (R32, 40 R125). -/
def commitWord (s : State) : Word := bitWord s.creq

/-- `OE_N = ~DISP_EN`, combinationally (10_state R40). -/
def State.oeN (s : State) : Bool := !s.dispEn

/-- `hp_ready` between two steps: 0 exactly while a tick request is pending (20_memory R61). -/
def State.hpReady (s : State) : Bool := !s.tickPend

end Sys2Proof.Machine
end

