-- ==== Sys2Proof/Machine/Ops.lean ====
section
/-! DEFINITION. The named operations over the registers and the panel side: row reads and writes, the animation
source (43), the serial transfer and the latch (41 R146, R147), the sequencer (R148), the commit (42), tick entry and
end (60), the reset values (10 R47), and which configurations are legal (00 R8, R9). -/

namespace Sys2Proof.Machine

/-! Row registers. -/

/-- `STAGE[r]` (10_state R34). -/
def stageRow (s : State) (r : Nat) : Word := s.stage.getD r 0

/-- `ACTIVE[r]` (10_state R22). -/
def activeRow (s : State) (r : Nat) : Word := s.active.getD r 0

/-- `STAGE[r] <- DATA[W-1:0]` (40 R120). -/
def setStageRow (r : Nat) (data : Word) (s : State) : State :=
  { s with stage := s.stage.set r (rowData s.cfg.geo data) }

/-- `hp_rdata <- v`. -/
def setRdata (v : Word) (s : State) : State := { s with hpRdata := v }

/-! The animation source. -/

/-- `visibleRow(r)` for an index (43 R186): invert within `SW` bits, rotate left by `idx` within `SW` bits, keep the low
`W` bits. The shifts are on naturals, so `inv >> SW` is 0 (R187). -/
def visibleRowAt (c : Config) (idx r : Nat) : Word :=
  let inv := (2 ^ c.sw - 1) - c.pattern.getD r 0
  let rot := ((inv <<< idx) ||| (inv >>> (c.sw - idx))) % 2 ^ c.sw
  BitVec.ofNat 16 (rot % 2 ^ c.geo.w)

/-- `visibleRow(r)` on the current `SCROLL_IDX`. -/
def visibleRow (s : State) (r : Nat) : Word := visibleRowAt s.cfg s.scrollIdx r

/-- `advance()`: `SCROLL_IDX <- (SCROLL_IDX + 1) mod SW` (10_state R33, 40 R126). -/
def advanceIndex (s : State) : State := { s with scrollIdx := (s.scrollIdx + 1) % s.cfg.sw }

/-- `zext_16(SCROLL_IDX)` (40 R127). An index of more than 16 bits (an `SW` above 65536 is legal) has no such word: a free
value (notes/assumptions/11). -/
def scrollWord (s : State) : Word :=
  if s.scrollIdx < 2 ^ 16 then BitVec.ofNat 16 s.scrollIdx else Config.wideScroll s.scrollIdx

/-! The panel side. -/

/-- `ones(2W)` in the chain. -/
def chainOnes (g : Geometry) : Chain := BitVec.ofNat 32 (2 ^ (2 * g.w) - 1)

/-- `{D, S}` as one `2W`-bit number (30_encoding R94). -/
def chainOf (g : Geometry) (d s : Word) : Chain := (d.zeroExtend 32 <<< g.w) ||| s.zeroExtend 32

/-- `SCLK <- 1`: a rising edge, `SR <- ((SR << 1) | SER) mod 2^(2W)` (10_state R38, 41 R146). -/
def clockRise (g : Geometry) (p : Panel) : Panel :=
  { p with sclk := true, sr := ((p.sr <<< 1) ||| (BitVec.ofBool p.ser).zeroExtend 32) &&& chainOnes g }

/-- `SER <- b ; SCLK <- 1 ; SCLK <- 0` (41 R146). -/
def shiftBit (g : Geometry) (b : Bool) (p : Panel) : Panel :=
  { clockRise g { p with ser := b } with sclk := false }

/-- `shift_out(v, N)`: most significant bit first (41 R146). -/
def shiftOut (g : Geometry) (v : Word) : Nat → Panel → Panel
  | 0, p => p
  | n + 1, p => shiftOut g v n (shiftBit g (v.getLsbD n) p)

/-- `LATCH <- 0 ; LATCH <- 1`: the rising edge performs `Q <- SR` (41 R147, 10_state R39). -/
def latchPulse (p : Panel) : Panel :=
  let low := { p with latch := false }
  { low with latch := true, q := low.sr }

/-- Step 2 of a tick: data word, select word, latch pulse (41 R140). -/
def sendFrame (g : Geometry) (d sel : Word) (p : Panel) : Panel :=
  latchPulse (shiftOut g sel g.w (shiftOut g d g.w p))

/-- `v` as the bits `shift_out(v, N)` puts on `SER`, in time order (20_memory R65). -/
def wordBits (v : Word) : Nat → List Bool
  | 0 => []
  | n + 1 => v.getLsbD n :: wordBits v n

/-- The serial frame of form S, in time order (30_encoding R94). -/
def serialFrame (g : Geometry) (d sel : Word) : List Bool := wordBits d g.w ++ wordBits sel g.w

/-- `Q_DATA = Q[2W-1:W]` (10_state R39). -/
def Panel.qData (g : Geometry) (p : Panel) : Word := (p.q >>> g.w).setWidth 16 &&& ones g.w

/-- `Q_SEL = Q[W-1:0]` (10_state R39). -/
def Panel.qSel (g : Geometry) (p : Panel) : Word := p.q.setWidth 16 &&& ones g.w

/-- What the panel shows: LED `(x, y)` is lit exactly when `OE_N = 0`, `Q_SEL[y] = 0` and `Q_DATA[x] = 0`
(10_state R41). -/
def lit (s : State) (x y : Nat) : Bool :=
  !s.oeN && decide (x < s.cfg.geo.w) && decide (y < s.cfg.geo.h) &&
    !(s.panel.qSel s.cfg.geo).getLsbD y && !(s.panel.qData s.cfg.geo).getLsbD x

/-! The tick, step by step (41 R140). -/

/-- The dark predicate: blanking in progress, or the display disabled (R141). -/
def dark (s : State) : Bool := decide (0 < s.blank) || !s.dispEn

/-- The row a lit tick shows: `ACTIVE[ROW]`, or `visibleRow(ROW)` when `SRC = 1` (R142). -/
def shownRow (s : State) : Word := if s.src then visibleRow s s.row else activeRow s s.row

/-- The row-data code `D` (R143); all-dark when dark (R145). -/
def dataCode (s : State) : Word :=
  if dark s then ones s.cfg.geo.w else compl s.cfg.geo.w (shownRow s)

/-- The row-select code `S` (R144); all-dark when dark (R145). -/
def selectCode (s : State) : Word :=
  if dark s then ones s.cfg.geo.w else compl s.cfg.geo.w (1#16 <<< s.row)

/-- Steps 1 and 2: the codes of this state, sent and latched. -/
def presentRow (s : State) : State :=
  { s with panel := sendFrame s.cfg.geo (dataCode s) (selectCode s) s.panel }

/-- Step 3, `(ROW, BLANK)` to its next position (R148). -/
def advanceSequencer (s : State) : State :=
  if s.blank = 0 then { s with row := (s.row + 1) % s.cfg.geo.h, blank := s.cfg.b }
  else { s with blank := s.blank - 1 }

/-- The safe instant, tested on the position step 3 has just written (R149, 42 R174). -/
def safeInstant (s : State) : Bool := s.row == 0 && s.blank == s.cfg.b

/-- Step 4: at the safe instant, with a request, the whole of `STAGE` is copied and `CREQ` cleared (R149, 42 R172, R173;
the row order is unobservable, 93 V9). -/
def commitAttempt (s : State) : State :=
  if safeInstant s && s.creq then { s with active := s.stage, creq := false } else s

/-! Taking the interrupt and returning from it (60_exceptions). -/

/-- A `tick_req` pulse: `TICK_PEND <- 1`; a request that finds it set is merged (R263, R264). -/
def requestTick (s : State) : State := { s with tickPend := true }

/-- Tick entry: `TICK_PEND` is cleared. "Entry saves nothing and changes no mode bit, stack or mask" (R263, R268). -/
def enterTick (s : State) : State := { s with tickPend := false }

/-- Tick end: "Nothing is restored because nothing was saved" (R270). -/
def leaveTick (s : State) : State := s

/-! Reset. -/

/-- `t = RD_CTRL; WR_CTRL ((t and 0xFFFD) or (v << 1))`: `SET_SRC v` (30_encoding R101). -/
def setSrcOps (v : Bool) : List MainOp := [.rdCtrl, .wrCtrlBack 0xFFFD#16 (bitWord v <<< 1)]

/-- What a host that takes the direct animation path issues on entering the state `Base(m)` (45 R238;
notes/assumptions/13). -/
def enterBaseOps (c : Config) (m : Mode) : List MainOp :=
  if c.host.directAnim && m == .animation then setSrcOps true else []

/-- What it issues on leaving `Base(m)` (45 R238; notes/assumptions/13). -/
def leaveBaseOps (c : Config) (m : Mode) : List MainOp :=
  if c.host.directAnim && m == .animation then setSrcOps false else []

/-- The host environment after reset (70_reset R293). -/
def powerOnHost (c : Config) : HostEnv where
  msg := { text := c.host.msgInit, width := textWidth c.host.font c.host.msgInit, cursor := c.geo.w }
  changed := true
  mode := c.host.modeInit
  overlayActive := false
  overlayStartMs := 0
  overlayText := []
  intervalMs := c.host.intervalInit
  lastDrawMs := 0
  pending := enterBaseOps c c.host.modeInit

/-- The machine right after power-on, for any configuration (10_state R47, 70_reset R290, R293); `State.reset` is this for
the default one. -/
def powerOn (c : Config) : State where
  cfg := c
  stage := List.replicate c.geo.h 0
  active := List.replicate c.geo.h 0
  row := 0
  blank := c.b
  creq := false
  dispEn := c.resetDispEn
  src := false
  scrollIdx := c.scrollInit
  tickPend := false
  panel := { sr := 0, q := 0, ser := false, sclk := false, latch := true }
  hpRdata := 0
  host := powerOnHost c
  inputs := []
  nowMs := 0
  auxPin := false
  busReply := 0
  freeCtr := 0

/-- The panel after RESET: the lines at their reset levels, `SR` and `Q` free values of `2W` bits (10_state R47, 93 V1;
notes/assumptions/4). -/
def resetPanel (g : Geometry) (n : Nat) : Panel where
  sr := Config.freeChain n &&& chainOnes g
  q := Config.freeChain (n + 1) &&& chainOnes g
  ser := false
  sclk := false
  latch := true

/-- RESET in any state: every piece of block and host state to its reset value, `SR`, `Q` and `hp_rdata` to free values;
what belongs to the environment (the inputs to come, the clock, the pin, the byte already returned on the bus) stays
(notes/assumptions/19). -/
def resetState (s : State) : State :=
  { powerOn s.cfg with
    panel := resetPanel s.cfg.geo s.freeCtr
    hpRdata := Config.freeRead s.freeCtr
    inputs := s.inputs
    nowMs := s.nowMs
    auxPin := s.auxPin
    busReply := s.busReply
    freeCtr := s.freeCtr + 2 }

/-! Timing parameters. -/

/-- The same machine with another synchronizer depth and tick period. The flip-flops of a positive `SYNC_STAGES` "are not
architectural" (10_state R43): a set of `CREQ` that crosses late is the set issued after that tick, an order of the
inputs, so they hold no state here (42_commit R179; notes/assumptions/9). -/
def State.withTiming (stages period : Nat) (s : State) : State :=
  { s with cfg.syncStages := stages, cfg.tickPeriod := period }

/-! Legal configurations. -/

/-- A font table of the shape R217 gives it: one glyph for each code of the range, in order (notes/assumptions/24). Where
its bits lie is not checked (R218). -/
def legalFont (f : Font) : Bool :=
  f.glyphs.map (·.code) == (List.range (f.last + 1 - f.first)).map (f.first + ·)

/-- The host parameters of R9 within what R225, R239 and D35 say of them. -/
def legalHost (h : HostParams) : Bool :=
  legalFont h.font && decide (h.intervalMin ≤ h.intervalInit) && decide (h.intervalInit ≤ h.intervalMax) &&
    decide (h.msgInit.length ≤ h.msgCap)

/-- The legal values of R8; anything else has no meaning (93 V8). -/
def legalConfig (c : Config) : Bool :=
  decide (c.b ≤ 255) && decide (c.geo.w < c.sw) &&
    (c.pattern.length == c.geo.h && c.pattern.all (fun p => decide (p < 2 ^ c.sw))) &&
    decide (c.scrollInit < c.sw) && decide (0 < c.tickPeriod) && decide (c.syncStages ≤ 3) && legalHost c.host

end Sys2Proof.Machine
end

