-- ==== Sys2Proof/Machine/Producers.lean ====
section
/-! DEFINITION. The host environment's routines (30_encoding R101; 45_host_producers): each is a list of steps that
MainFlow issues one at a time, with its updates of host variables. -/

namespace Sys2Proof.Machine

/-- MainFlow's routine goes on with `ops` after what it has still to do (notes/assumptions/7). -/
def queueOps (ops : List MainOp) (s : State) : State :=
  { s with host.pending := s.host.pending ++ ops }

/-! The pseudo-operations of R101. -/

/-- A row number below `H` as a row operand. -/
def rowIx (r : Nat) : RowIx := BitVec.ofNat 4 r

/-- `SET_DISPLAY b`: `t = RD_CTRL; WR_CTRL ((t and 0xFFFE) or b)`. -/
def setDisplayOps (b : Bool) : List MainOp := [.rdCtrl, .wrCtrlBack 0xFFFE#16 (bitWord b)]

/-- `PLOT x, y, c`: read, then write the row with bit `x` set or cleared; nothing outside the surface (40 R130). -/
def plotOps (g : Geometry) (c : Bool) (p : Int × Int) : List MainOp :=
  if 0 ≤ p.1 ∧ p.1 < g.w ∧ 0 ≤ p.2 ∧ p.2 < g.h then
    let bit := 1#16 <<< p.1.toNat
    [.rdStage (rowIx p.2.toNat),
      if c then .wrStageBack (rowIx p.2.toNat) 0xFFFF#16 bit
      else .wrStageBack (rowIx p.2.toNat) (compl g.w bit) 0#16]
  else []

/-- `CLEAR_STAGE`: `WR_STAGE r, 0` for every row. -/
def clearStageOps (g : Geometry) : List MainOp :=
  (List.range g.h).map fun r => .wrStage (rowIx r) 0#16

/-- `PAINT_ANIM`: `t = RD_VROW r; WR_STAGE r, t` for every row. -/
def paintAnimOps (g : Geometry) : List MainOp :=
  (List.range g.h).flatMap fun r => [.rdVrow (rowIx r), .wrStageBack (rowIx r) 0xFFFF#16 0#16]

/-- `drawString(x, y, W, H, text, 1)` on the staging surface (45 R222, R224). -/
def drawTextOps (c : Config) (x y : Int) (text : List Byte) : List MainOp :=
  (stringPixels c.host.font x y c.geo.w c.geo.h text).flatMap (plotOps c.geo true)

/-- `CLEAR_STAGE`, the text, `COMMIT` (45 R229, R230, R234). -/
def paintTextOps (c : Config) (x y : Int) (text : List Byte) : List MainOp :=
  clearStageOps c.geo ++ drawTextOps c x y text ++ [.commit]

/-! Messages. -/

/-- `setMessage(text)` (45 R227): truncate, measure, cursor to `W`, content changed. -/
def replaceMessage (text : List Byte) (s : State) : State :=
  let kept := capText s.cfg text
  { s with
    host.msg := { text := kept, width := textWidth s.cfg.host.font kept, cursor := s.cfg.geo.w }
    host.changed := true }

/-- The scroller's `tick()`: one pixel left, and back to `W` below `-width` (45 R228). -/
def scrollTick (w : Nat) (m : Message) : Message :=
  if m.cursor - 1 < -(m.width : Int) then { m with cursor := w } else { m with cursor := m.cursor - 1 }

/-! The overlay. -/

/-- The overlay trigger (45 R234), after the direct path's `SET_SRC 0` (45 R238). -/
def triggerOverlay (text : List Byte) (s : State) : State :=
  let kept := capText s.cfg text
  queueOps (leaveBaseOps s.cfg s.host.mode ++ paintTextOps s.cfg s.cfg.host.overlayX s.cfg.host.overlayY kept ++
      [.overlayShown])
    { s with host.overlayText := kept }

/-- `now_ms - since >= d` (45 R235, R241): on integers, so a clock before `since` is not due (notes/assumptions/17). -/
def elapsed (now since d : Nat) : Bool := decide (since + d ≤ now)

/-- The overlay has been shown for `OVERLAY_MS` (45 R235). -/
def overlayExpired (s : State) : Bool :=
  s.host.overlayActive && elapsed s.nowMs s.host.overlayStartMs s.cfg.host.overlayMs

/-- Overlay expiry (45 R235), with the direct path's `SET_SRC 1` at the revert (45 R238). -/
def expireOverlay (s : State) : State :=
  if overlayExpired s then
    queueOps (enterBaseOps s.cfg s.host.mode) { s with host.overlayActive := false, host.changed := true }
  else s

/-! Redraws. -/

/-- One scrolling redraw (45 R229). -/
def redrawScrolling (s : State) : State :=
  let m := scrollTick s.cfg.geo.w s.host.msg
  queueOps (paintTextOps s.cfg m.cursor s.cfg.host.textY m.text) { s with host.msg := m }

/-- One static redraw: only when the content has changed (45 R230). -/
def redrawStatic (s : State) : State :=
  if s.host.changed then
    queueOps (paintTextOps s.cfg s.cfg.host.staticX s.cfg.host.staticY s.host.msg.text ++ [.staticDrawn]) s
  else s

/-- One animation redraw: `ADVANCE`, and on the staging path `PAINT_ANIM`, `COMMIT` (45 R237, R238). -/
def redrawAnimation (s : State) : State :=
  if s.cfg.host.directAnim then queueOps [.advance] s
  else queueOps (.advance :: paintAnimOps s.cfg.geo ++ [.commit]) s

/-- The redraw of the mode selected (45 R241). -/
def redraw (s : State) : State :=
  match s.host.mode with
  | .animation => redrawAnimation s
  | .scrollingText => redrawScrolling s
  | .staticText => redrawStatic s

/-- The redraw-due check; calling when not due is a no-op (45 R239, R241). -/
def redrawIfDue (s : State) : State :=
  if elapsed s.nowMs s.host.lastDrawMs s.host.intervalMs then
    redraw { s with host.lastDrawMs := s.nowMs }
  else s

/-- `director_poll()` (45 R241): while the overlay is shown the base producer is suspended (45 R236). -/
def directorPoll (s : State) : State :=
  let s1 := expireOverlay s
  if s1.host.overlayActive then s1 else redrawIfDue s1

/-- The part of a main-loop iteration after the dispatch (45 R242): the poll, or the idle delay, which takes time and
does nothing (notes/assumptions/14). How the loop learns `DISP_EN` is not said (R242, 60 R275): it is read here without a
host-port operation, so `hp_rdata` is untouched; DESIGN CHOICE (notes/assumptions/26). -/
def mainLoop (s : State) : State := if s.dispEn then directorPoll s else s

/-! The mode. -/

/-- `setDisplayMode` for a known mode (44 R204). The director's state changes only in `Base` (45 R240), and only then
does the direct path switch `SRC` (notes/assumptions/13). -/
def selectMode (m : Mode) (s : State) : State :=
  let ops := if s.host.overlayActive || m == s.host.mode then []
    else leaveBaseOps s.cfg s.host.mode ++ enterBaseOps s.cfg m
  queueOps ops { s with host.mode := m, host.changed := s.host.changed || m == .staticText }

/-! The bus read. -/

/-- The status byte of a bus read request: 0 or 1, the level of the auxiliary pin in a free polarity (44 R205;
notes/assumptions/12). -/
def statusByte (level : Bool) : Byte := (BitVec.ofBool (level ^^ Config.auxPolarity)).zeroExtend 8

/-- A bus read request: one status byte, and no block state read or changed (44 R205). -/
def answerBusRead (s : State) : State := { s with busReply := statusByte s.auxPin }

/-! MainFlow's steps. -/

/-- The host-port operation of a MainFlow step, its data made from the value `t` last read (30_encoding R101); none for an
update of a host variable. -/
def MainOp.toInstr (t : Word) : MainOp → Option Instr
  | .wrStage r v => some (.wrStage r v)
  | .rdStage r => some (.rdStage r)
  | .rdVrow r => some (.rdVrow r)
  | .rdCtrl => some .rdCtrl
  | .wrCtrlBack keep set => some (.wrCtrl ((t &&& keep) ||| set))
  | .wrStageBack r keep set => some (.wrStage r ((t &&& keep) ||| set))
  | .commit => some (.wrCommit 1#16)
  | .advance => some (.wrScroll 0#16)
  | .overlayShown => none
  | .staticDrawn => none

/-- The update of a host variable by a MainFlow step (45 R230, R234). -/
def hostUpdate (op : MainOp) (s : State) : State :=
  match op with
  | .overlayShown => { s with host.overlayActive := true, host.overlayStartMs := s.nowMs }
  | .staticDrawn => { s with host.changed := false }
  | _ => s

end Sys2Proof.Machine
end

