-- ==== Sys2Proof/Machine/Bus.lean ====
section
/-! DEFINITION. The control-bus commands (44_bus_commands). A command updates MainFlow's own variables at once; the
host-port operations it expands to become MainFlow's next steps, and a tick may fall between any two of them
(30_encoding R101; notes/assumptions/7). A command whose payload byte is missing is ignored (30_encoding R98). -/

namespace Sys2Proof.Machine

/-- `setDisplay` (R201): `SET_DISPLAY (b != 0 ? 1 : 0)`. -/
def execSetDisplay (b : Option Byte) (s : State) : Result :=
  match b with
  | some v => .next (queueOps (setDisplayOps (boolPayload v)) s)
  | none => .next s

/-- `setMessage` (R202). -/
def execSetMessage (text : List Byte) (s : State) : Result := .next (replaceMessage text s)

/-- `setScrollSpeed` (R203). -/
def execSetScrollSpeed (speed : Option Byte) (s : State) : Result :=
  match speed with
  | some v => .next { s with host.intervalMs := speedInterval s.cfg v }
  | none => .next s

/-- `setDisplayMode` (R204); an unknown mode identifier is ignored. -/
def execSetDisplayMode (modeId : Option Byte) (s : State) : Result :=
  match modeId.bind modeOfId with
  | some m => .next (selectMode m s)
  | none => .next s

/-- `showTempMessage` (R206). -/
def execShowTempMessage (text : List Byte) (s : State) : Result := .next (triggerOverlay text s)

/-- An unknown opcode: ignored (R207). -/
def execUnknownCommand (_opcode : Byte) (_payload : List Byte) (s : State) : Result := .next s

end Sys2Proof.Machine
end

