-- ==== Sys2Proof/Machine/HostPort.lean ====
section
/-! DEFINITION. The eleven host-port operations (40_host_port_ops). None faults and none can fail. -/

namespace Sys2Proof.Machine

/-- `WR_CTRL` (R122). -/
def execWrCtrl (data : Word) (s : State) : Result := .next (writeCtrlFlags data s)

/-- `RD_CTRL` (R123). -/
def execRdCtrl (s : State) : Result := .next (setRdata (ctrlWord s) s)

/-- `WR_COMMIT` (R124). -/
def execWrCommit (data : Word) (s : State) : Result := .next (requestCommit data s)

/-- `RD_COMMIT` (R125). -/
def execRdCommit (s : State) : Result := .next (setRdata (commitWord s) s)

/-- `WR_SCROLL` (R126); the data is not looked at. -/
def execWrScroll (_data : Word) (s : State) : Result := .next (advanceIndex s)

/-- `RD_SCROLL` (R127). -/
def execRdScroll (s : State) : Result := .next (setRdata (scrollWord s) s)

/-- `WR_STAGE r, v` (R120). -/
def execWrStage (r : RowIx) (data : Word) (s : State) : Result := .next (setStageRow r.toNat data s)

/-- `RD_STAGE r` (R121). -/
def execRdStage (r : RowIx) (s : State) : Result := .next (setRdata (stageRow s r.toNat) s)

/-- `RD_VROW r` (R128). -/
def execRdVrow (r : RowIx) (s : State) : Result := .next (setRdata (visibleRow s r.toNat) s)

/-- `WR_IGNORED` (R129): a write changes nothing. -/
def execWrIgnored (_addr : Addr) (_data : Word) (s : State) : Result := .next s

/-- `RD_ZERO` (R129): a read of an unmapped address returns 0. -/
def execRdZero (_addr : Addr) (s : State) : Result := .next (setRdata 0#16 s)

/-- What a read of a host-port address returns (20_memory R62). -/
def portRead (s : State) (a : Addr) : Word :=
  if a.toNat = 0 then ctrlWord s
  else if a.toNat = 1 then commitWord s
  else if a.toNat = 2 then scrollWord s
  else if inWindow s.cfg.geo 0x10 a then stageRow s (a.toNat - 0x10)
  else if inWindow s.cfg.geo 0x20 a then visibleRow s (a.toNat - 0x20)
  else 0#16

end Sys2Proof.Machine
end

