-- ==== Sys2Proof/Machine/Refresh.lean ====
section
/-! DEFINITION. The two events of form E: the refresh tick (41 R140) and reset (70 R290). -/

namespace Sys2Proof.Machine

/-- The body of a tick, its four steps in order (41 R140): present the row, advance the sequencer, attempt the commit. -/
def tickBody (s : State) : State := commitAttempt (advanceSequencer (presentRow s))

/-- `TICK`: entry, the four steps, end; one atomic step (60 R268). -/
def execTick (s : State) : Result := .next (leaveTick (tickBody (enterTick s)))

/-- `RESET` (70 R290). -/
def execReset (s : State) : Result := .next (resetState s)

end Sys2Proof.Machine
end

