-- ==== Sys2Proof/Machine/Dispatch.lean ====
section
/-! DEFINITION. One arm for each instruction. -/

namespace Sys2Proof.Machine

def exec (i : Instr) (s : State) : Host.Outcome State Fault Refusal :=
  match i with
  | .wrCtrl data => Sys2Proof.Machine.execWrCtrl data s
  | .rdCtrl => Sys2Proof.Machine.execRdCtrl s
  | .wrCommit data => Sys2Proof.Machine.execWrCommit data s
  | .rdCommit => Sys2Proof.Machine.execRdCommit s
  | .wrScroll data => Sys2Proof.Machine.execWrScroll data s
  | .rdScroll => Sys2Proof.Machine.execRdScroll s
  | .wrStage r data => Sys2Proof.Machine.execWrStage r data s
  | .rdStage r => Sys2Proof.Machine.execRdStage r s
  | .rdVrow r => Sys2Proof.Machine.execRdVrow r s
  | .wrIgnored addr data => Sys2Proof.Machine.execWrIgnored addr data s
  | .rdZero addr => Sys2Proof.Machine.execRdZero addr s
  | .tick => Sys2Proof.Machine.execTick s
  | .reset => Sys2Proof.Machine.execReset s
  | .setDisplay b => Sys2Proof.Machine.execSetDisplay b s
  | .setMessage text => Sys2Proof.Machine.execSetMessage text s
  | .setScrollSpeed speed => Sys2Proof.Machine.execSetScrollSpeed speed s
  | .setDisplayMode modeId => Sys2Proof.Machine.execSetDisplayMode modeId s
  | .showTempMessage text => Sys2Proof.Machine.execShowTempMessage text s
  | .unknownCommand opcode payload => Sys2Proof.Machine.execUnknownCommand opcode payload s

end Sys2Proof.Machine
end

