-- ==== Sys2Proof/Machine/Arbiter.lean ====
section
/-! DEFINITION. Which agent moves next (20_memory R71; 60_exceptions R262 to R268): the next input, a pending tick, or
MainFlow's running routine. -/

namespace Sys2Proof.Machine

/-- The state with the input at the head of the queue taken. -/
def takeInput (s : State) : State := { s with inputs := s.inputs.tail }

/-- MainFlow takes the next step of its routine; with none left it has nothing to do. -/
def mainStep (s : State) : Result :=
  match s.host.pending with
  | [] => .next s
  | op :: rest =>
    let s1 := { s with host.pending := rest }
    match op.toInstr s.hpRdata with
    | some i => exec i s1
    | none => .next (hostUpdate op s1)

/-- An operation arrives (30_encoding R90). A form that is no operation (a bus command without even an opcode byte) is
ignored, as a command that is too short is (R98; notes/assumptions/15). -/
def runForm (f : Form) (s : State) : Result :=
  match decode s.cfg.geo f with
  | .ok i => exec i s
  | .error _ => .next s

/-- One cycle of the host-port signals (20_memory R61). -/
def runCycle (we re : Bool) (addr : Addr) (data : Word) (s : State) : Result :=
  match wordOfStrobes we re addr data with
  | some t => runForm (.word t) s
  | none => .next s

/-- An input that MainFlow has to handle waits until its routine is done: MainFlow is one sequential agent (R302, R200). -/
def whenMainFree (run : State → Result) (s : State) : Result :=
  match s.host.pending with
  | [] => run (takeInput s)
  | _ :: _ => mainStep s

/-- The next input is taken, or waits for MainFlow. A `tick_req` pulse sets `TICK_PEND`; a step starts at an operation
boundary, so the arbiter starts the tick at once and clears it (R263, 10_state R42; notes/assumptions/8). A command and
a main-loop poll are two inputs, so any number of commands may be dispatched between two polls (45 R242 leaves it open):
DESIGN CHOICE (notes/assumptions/27). -/
def acceptInput (e : Input) (s : State) : Result :=
  match e with
  | .op (.word t) => whenMainFree (runForm (.word t)) s
  | .op (.bus bytes) => whenMainFree (runForm (.bus bytes)) s
  | .op .tickReq => runForm .tickReq (requestTick (takeInput s))
  | .op .rst => runForm .rst (takeInput s)
  | .cycle we re addr data => whenMainFree (runCycle we re addr data) s
  | .busRead => .next (answerBusRead (takeInput s))
  | .loop => whenMainFree (fun t => .next (mainLoop t)) s
  | .go => mainStep (takeInput s)
  | .clock ms => .next { takeInput s with nowMs := ms }
  | .aux level => .next { takeInput s with auxPin := level }

/-- One step for a legal configuration: `rst` before everything, a pending tick before everything else (R267), then the
next input; with no input MainFlow goes on, or the block idles. -/
def arbitrate (s : State) : Result :=
  match s.inputs with
  | .op .rst :: _ => acceptInput (.op .rst) s
  | [] => if s.tickPend then exec .tick s else mainStep s
  | e :: _ => if s.tickPend then exec .tick s else acceptInput e s

/-- One step; a configuration the spec gives no meaning is refused (93 V8). -/
def stepOnce (s : State) : Result :=
  if legalConfig s.cfg then arbitrate s else .refused .illegalConfig

end Sys2Proof.Machine
end

