-- ==== Sys2Proof/Machine/Step.lean ====
section
/-! DEFINITION. One step of the machine, and where it takes its next operation from. -/

namespace Sys2Proof.Machine

/-- One step (Machine/Arbiter.lean). -/
def step (s : State) : Host.Outcome State Fault Refusal := stepOnce s

/-- `s` with the operation of a table word as the very next thing `step` runs: at the head of the inputs, no tick request
pending, and MainFlow free (notes/assumptions/6, 20). -/
def State.withFetchWord (s : State) (nbits w : Nat) : State :=
  match formOfTableWord nbits w with
  | some f => { s with inputs := .op f :: s.inputs, tickPend := false, host.pending := [] }
  | none => s

end Sys2Proof.Machine
end

