-- ==== Sys2Proof/Safety.lean ====
section
/-! DEFINITION. What counts as a legal state, and the words in which claims about runs are stated. -/

namespace Sys2Proof.Machine

/-- A row step of MainFlow names a row of the surface. -/
def MainOp.rowOk (g : Geometry) : MainOp → Bool
  | .wrStage r _ => decide (r.toNat < g.h)
  | .rdStage r => decide (r.toNat < g.h)
  | .rdVrow r => decide (r.toNat < g.h)
  | .wrStageBack r _ _ => decide (r.toNat < g.h)
  | .rdCtrl => true
  | .wrCtrlBack _ _ => true
  | .commit => true
  | .advance => true
  | .overlayShown => true
  | .staticDrawn => true

/-- The invariant: the ranges 10_state and 45_host_producers give every piece of state. -/
structure State.Inv (s : State) : Prop where
  /-- 00_scope R8, R9 -/
  legal : legalConfig s.cfg = true
  /-- R21: `H` rows of `W` bits -/
  stage_length : s.stage.length = s.cfg.geo.h
  stage_fits : ∀ v ∈ s.stage, v.toNat < 2 ^ s.cfg.geo.w
  /-- R22: `H` rows of `W` bits -/
  active_length : s.active.length = s.cfg.geo.h
  active_fits : ∀ v ∈ s.active, v.toNat < 2 ^ s.cfg.geo.w
  /-- R24 -/
  row_lt : s.row < s.cfg.geo.h
  /-- R25 -/
  blank_le : s.blank ≤ s.cfg.b
  /-- R29: hardwired 0 without `HAS_DIRECT_ANIM` -/
  src_off : s.cfg.hasDirectAnim = false → s.src = false
  /-- R33 -/
  scroll_lt : s.scrollIdx < s.cfg.sw
  /-- R42: never seen set across an atomic step -/
  no_pending_tick : s.tickPend = false
  /-- R38 -/
  sr_fits : s.panel.sr.toNat < 2 ^ (2 * s.cfg.geo.w)
  /-- R39 -/
  q_fits : s.panel.q.toNat < 2 ^ (2 * s.cfg.geo.w)
  /-- R40: between ticks `SCLK = 0` and `LATCH = 1` -/
  sclk_low : s.panel.sclk = false
  latch_high : s.panel.latch = true
  /-- 45 R225 -/
  msg_text_le : s.host.msg.text.length ≤ s.cfg.host.msgCap
  msg_width : s.host.msg.width = textWidth s.cfg.host.font s.host.msg.text
  /-- 45 R228: the cursor takes the values `W, W-1, ..., -width` -/
  cursor_ge : -(s.host.msg.width : Int) ≤ s.host.msg.cursor
  cursor_le : s.host.msg.cursor ≤ s.cfg.geo.w
  /-- 45 R234 -/
  overlay_text_le : s.host.overlayText.length ≤ s.cfg.host.msgCap
  /-- 45 R239 -/
  interval_ge : s.cfg.host.intervalMin ≤ s.host.intervalMs
  interval_le : s.host.intervalMs ≤ s.cfg.host.intervalMax
  /-- 30_encoding R101: every row step of a routine names a row below `H` -/
  pending_rows : ∀ op ∈ s.host.pending, op.rowOk s.cfg.geo = true

/-- The number of ticks in a pass, `H * (B + 1)` (00_scope R16). -/
def passLength (c : Config) : Nat := c.geo.h * (c.b + 1)

/-- Where the sequencer stands in the cyclic order `(0, B), ..., (0, 0), (1, B), ..., (H-1, 0)` (10_state R26). -/
def position (s : State) : Nat := s.row * (s.cfg.b + 1) + (s.cfg.b - s.blank)

/-- Pixel `(x, y)` of a surface: bit `x` of row `y` (00_scope R13). -/
def pixel (surface : List Word) (x y : Nat) : Bool := (surface.getD y 0).getLsbD x

/-- A pulse on `tick_req` as an input. -/
abbrev tickInput : Input := .op .tickReq

/-- `k` steps of the machine: `Host.Core.run` of `Sys2Proof.core` (Laws/Run.lean, `runSteps_eq_run`). -/
def runSteps : Nat → State → Result
  | 0, s => .next s
  | k + 1, s =>
    match step s with
    | .next t => runSteps k t
    | .fault r => .fault r
    | .refused r => .refused r

/-- MainFlow is the agent that handles the input. -/
def Input.forMain : Input → Bool
  | .op (.word _) => true
  | .op (.bus _) => true
  | .cycle _ _ _ _ => true
  | .loop => true
  | .op .tickReq => false
  | .op .rst => false
  | .busRead => false
  | .go => false
  | .clock _ => false
  | .aux _ => false

end Sys2Proof.Machine
end

