-- ==== Sys2Proof/Certificates/Slice0/Obligations.lean ====
section
/-! DEFINITION. The statements about the model, each with the rules of spec/ it speaks of. -/

open Sys2Proof Sys2Proof.Machine

/-! Encodings -/

/-- 30_encoding R91 to R97, R100: what is encoded is read back, for every instruction and every operand the encoding
admits, in both geometries. -/
def Obligations.DecodeEncodeRoundTrip : Prop :=
  ∀ (g : Geometry) (i : Instr), i.wellFormed g = true → decode g (encode i) = .ok i

/-- 30_encoding R92, R97: the decoder gives only instructions the encoding admits. -/
def Obligations.DecodedInstructionsAreWellFormed : Prop :=
  ∀ (g : Geometry) (f : Form) (i : Instr), decode g f = .ok i → i.wellFormed g = true

/-- 30_encoding R91: no bit of a write word is dropped; of a read word only `DATA`, which is ignored, is. -/
def Obligations.WordsEncodeBackFromTheirOperation : Prop :=
  ∀ (g : Geometry) (addr : Addr) (data : Word),
    encode (decodeWord g (mkTrans true addr data)) = .word (mkTrans true addr data) ∧
    encode (decodeWord g (mkTrans false addr data)) = .word (mkTrans false addr 0)

/-- 30_encoding R92, the whole map: which operation `RW` and `ADDR` select, and its operands. -/
def Obligations.OpcodeMapSelectsByRwAndAddress : Prop :=
  ∀ (g : Geometry) (addr : Addr) (data : Word),
    (addr.toNat = 0x00 → decodeWord g (mkTrans true addr data) = .wrCtrl data) ∧
    (addr.toNat = 0x00 → decodeWord g (mkTrans false addr data) = .rdCtrl) ∧
    (addr.toNat = 0x01 → decodeWord g (mkTrans true addr data) = .wrCommit data) ∧
    (addr.toNat = 0x01 → decodeWord g (mkTrans false addr data) = .rdCommit) ∧
    (addr.toNat = 0x02 → decodeWord g (mkTrans true addr data) = .wrScroll data) ∧
    (addr.toNat = 0x02 → decodeWord g (mkTrans false addr data) = .rdScroll) ∧
    (∀ r : RowIx, r.toNat < g.h → addr.toNat = 0x10 + r.toNat →
      decodeWord g (mkTrans true addr data) = .wrStage r data ∧
      decodeWord g (mkTrans false addr data) = .rdStage r) ∧
    (∀ r : RowIx, r.toNat < g.h → addr.toNat = 0x20 + r.toNat →
      decodeWord g (mkTrans false addr data) = .rdVrow r) ∧
    (2 < addr.toNat → ¬ (0x10 ≤ addr.toNat ∧ addr.toNat < 0x10 + g.h) →
      decodeWord g (mkTrans true addr data) = .wrIgnored addr data) ∧
    (2 < addr.toNat → ¬ (0x10 ≤ addr.toNat ∧ addr.toNat < 0x10 + g.h) →
      ¬ (0x20 ≤ addr.toNat ∧ addr.toNat < 0x20 + g.h) →
      decodeWord g (mkTrans false addr data) = .rdZero addr)

/-- 30_encoding R102: for every 25-bit word the decoder agrees with the machine-readable table, tried in priority order. -/
def Obligations.DecoderAgreesWithOpcodeTable : Prop :=
  ∀ (g : Geometry) (t : Trans),
    ∃ row, tableRowOf g t = some row ∧ (decodeWord g t).mnemonic = row.mnemonic

/-- A few words and command bytes as 95_test_vectors writes them out. -/
def Obligations.WrittenOutWordsDecode : Prop :=
  decode .g8 (.word 0x1130018#25) = .ok (.wrStage 3#4 0x0018#16) ∧
  decode .g16 (.word 0x11FBEEF#25) = .ok (.wrStage 15#4 0xBEEF#16) ∧
  decode .g8 (.word 0x11FBEEF#25) = .ok (.wrIgnored 0x1F#8 0xBEEF#16) ∧
  decode .g8 (.word 0x01F0000#25) = .ok (.rdZero 0x1F#8) ∧
  decode .g8 (.word 0x100FFFE#25) = .ok (.wrCtrl 0xFFFE#16) ∧
  decode .g8 (.word 0x0010000#25) = .ok .rdCommit ∧
  decode .g8 (.word 0x1021234#25) = .ok (.wrScroll 0x1234#16) ∧
  decode .g8 (.word 0x0250000#25) = .ok (.rdVrow 5#4) ∧
  decode .g8 (.word 0x120FFFF#25) = .ok (.wrIgnored 0x20#8 0xFFFF#16) ∧
  decode .g8 (.bus [0x01#8, 0x68#8, 0x69#8, 0x0A#8]) = .ok (.setMessage [0x68#8, 0x69#8]) ∧
  decode .g8 (.bus [0x02#8, 0x64#8]) = .ok (.setScrollSpeed (some 0x64#8)) ∧
  decode .g8 (.bus [0x7F#8, 0x01#8, 0x02#8]) = .ok (.unknownCommand 0x7F#8 [0x01#8, 0x02#8])

/-- 30_encoding R96, R97, R98: which command the opcode byte selects, where a text ends, and a payload byte that is
missing. (That bytes after a one-byte payload are not looked at is the model's choice, notes/assumptions/15.) -/
def Obligations.BusBytesDecode : Prop :=
  ∀ (g : Geometry) (text rest : List Byte) (b : Byte),
    (textWellFormed text = true →
      decode g (.bus (0x01#8 :: (text ++ 0x0A#8 :: rest))) = .ok (.setMessage text) ∧
      decode g (.bus (0x01#8 :: text)) = .ok (.setMessage text) ∧
      decode g (.bus (0x04#8 :: (text ++ 0x0A#8 :: rest))) = .ok (.showTempMessage text) ∧
      decode g (.bus (0x04#8 :: text)) = .ok (.showTempMessage text)) ∧
    decode g (.bus (0x00#8 :: b :: rest)) = .ok (.setDisplay (some b)) ∧
    decode g (.bus (0x02#8 :: b :: rest)) = .ok (.setScrollSpeed (some b)) ∧
    decode g (.bus (0x03#8 :: b :: rest)) = .ok (.setDisplayMode (some b)) ∧
    decode g (.bus [0x00#8]) = .ok (.setDisplay none) ∧
    decode g (.bus [0x02#8]) = .ok (.setScrollSpeed none) ∧
    decode g (.bus [0x03#8]) = .ok (.setDisplayMode none) ∧
    (5 ≤ b.toNat → decode g (.bus (b :: rest)) = .ok (.unknownCommand b rest))

/-! The step -/

/-- 20_memory R71, 60_exceptions R263: an operation at the head of the inputs, with no tick request pending, is decoded and
run, and it alone: a host-port word or a command with MainFlow free, a pulse on `tick_req` (which first sets `TICK_PEND`)
or `rst` whatever MainFlow has still to do. So is the operation of a table word that `withFetchWord` places. The model's
choices: the list of inputs and what `withFetchWord` does (notes/assumptions/6, 20), and the tick in the step of its pulse
(notes/assumptions/8). -/
def Obligations.StepRunsTheDecodedOperation : Prop :=
  (∀ (s : State) (f : Form) (rest : List Input) (i : Instr),
    legalConfig s.cfg = true → s.tickPend = false → (s.host.pending = [] ∨ f = .tickReq ∨ f = .rst) →
    s.inputs = .op f :: rest → decode s.cfg.geo f = .ok i →
    step s = exec i { s with inputs := rest, tickPend := f == .tickReq }) ∧
  (∀ (s : State) (nbits w : Nat) (f : Form) (i : Instr),
    legalConfig s.cfg = true → formOfTableWord nbits w = some f → decode s.cfg.geo f = .ok i →
    step (s.withFetchWord nbits w) = exec i { s with tickPend := false, host.pending := [] })

/-- 30_encoding R101, 60_exceptions R268: MainFlow's routine is taken one host-port operation a step, on the value the last
read returned, when MainFlow's turn is given (`go`) and when there is no input. That the routine is a list of steps, and
when its turn comes, is the model's choice (notes/assumptions/6, 7). -/
def Obligations.RoutineIsTakenOneOperationAStep : Prop :=
  ∀ (s : State) (op : MainOp) (rest : List MainOp) (i : Instr),
    legalConfig s.cfg = true → s.tickPend = false → s.host.pending = op :: rest →
    op.toInstr s.hpRdata = some i →
    (s.inputs = [] → step s = exec i { s with host.pending := rest }) ∧
    (∀ tl, s.inputs = .go :: tl → step s = exec i { s with host.pending := rest, inputs := tl })

/-- 70_reset R302, 44_bus_commands R200 ("performed one at a time"): what MainFlow has to handle waits until its routine is
done, which goes on meanwhile, by its next host-port operation or its next update of a host variable (the model's choice,
notes/assumptions/7). -/
def Obligations.MainFlowInputsWaitForItsRoutine : Prop :=
  ∀ (s : State) (e : Input) (rest : List Input) (op : MainOp) (ops : List MainOp),
    legalConfig s.cfg = true → s.tickPend = false → s.host.pending = op :: ops → s.inputs = e :: rest →
    e.forMain = true →
    (∀ i, op.toInstr s.hpRdata = some i → step s = exec i { s with host.pending := ops }) ∧
    (op.toInstr s.hpRdata = none → step s = .next (hostUpdate op { s with host.pending := ops })) ∧
    ∃ t, step s = .next t ∧ t.inputs = s.inputs ∧ t.host.pending = ops

/-- 60_exceptions R263, R267, R268: a pulse on `tick_req` is a tick whatever MainFlow has still to do, between any two of
its operations; the routine, the host variables and the value last read are as before, so the routine goes on from where it
was. The model's choices: the tick in the step of its pulse (notes/assumptions/8), `hp_rdata` kept (notes/assumptions/5). -/
def Obligations.TickPreemptsARunningRoutine : Prop :=
  ∀ (s : State) (rest : List Input), s.Inv → s.inputs = tickInput :: rest →
    step s = exec .tick { s with inputs := rest, tickPend := true } ∧
    ∃ t, step s = .next t ∧ t.host = s.host ∧ t.hpRdata = s.hpRdata ∧ t.inputs = rest ∧ t.tickPend = false

/-- 70_reset R290: `rst` is taken whatever is pending. -/
def Obligations.ResetComesBeforeEverything : Prop :=
  ∀ (s : State) (rest : List Input), legalConfig s.cfg = true → s.inputs = .op .rst :: rest →
    step s = exec .reset { s with inputs := rest } ∧
    ∃ t, step s = .next t ∧ t.tickPend = false ∧ t.inputs = rest

/-- 60_exceptions R260, R283: every step of a legal machine has a next state; 93 V8: an illegal one is refused. -/
def Obligations.EveryStepOfALegalMachineAnswers : Prop :=
  ∀ s : State, (legalConfig s.cfg = true → ∃ t, step s = .next t) ∧
    (legalConfig s.cfg = false → step s = .refused .illegalConfig)

/-- The invariant holds right after power-on, for the default machine and for every legal one. -/
def Obligations.PowerOnMeetsTheInvariant : Prop :=
  State.reset.Inv ∧ ∀ c : Config, legalConfig c = true → (powerOn c).Inv

/-- Every step keeps the invariant: the ranges of 10_state R21 to R42 and of 45_host_producers R225 to R239. -/
def Obligations.StepKeepsTheInvariant : Prop :=
  ∀ s t : State, s.Inv → step s = .next t → t.Inv

/-- 00_scope R8, 70_reset R294: the configuration, PATTERN among it, never changes. 10_state R43, 42 R179: the depth of the
synchronizer (and the tick period) changes no step; what a synchronizer may do, a set that is seen late, is the order
"tick, then `WR_COMMIT`" of the inputs: it leaves what the tick left, with the request pending. -/
def Obligations.ConfigurationIsFixedAndSynchronizerUnseen : Prop :=
  (∀ s t : State, step s = .next t → t.cfg = s.cfg) ∧
  (∀ (s t : State) (stages period : Nat), stages ≤ 3 → 0 < period → step s = .next t →
    step (s.withTiming stages period) = .next (t.withTiming stages period)) ∧
  (∀ (s t : State) (rest : List Input), s.Inv → s.host.pending = [] →
    s.inputs = tickInput :: .op (encode (.wrCommit 1#16)) :: rest → exec .tick { s with inputs := rest } = .next t →
    runSteps 2 s = .next { t with creq := true })

/-! Host-port operations -/

/-- 40 R120: one row takes `DATA[W-1:0]`; no other address of the host port reads differently, and nothing else
changes, the flags among it. -/
def Obligations.WrStageWritesOneRow : Prop :=
  ∀ (s : State) (r : RowIx) (data : Word), s.stage.length = s.cfg.geo.h → r.toNat < s.cfg.geo.h →
    ∃ t, exec (.wrStage r data) s = .next t ∧
      (∀ x, pixel t.stage x r.toNat = (decide (x < s.cfg.geo.w) && data.getLsbD x)) ∧
      (∀ y, y ≠ r.toNat → t.stage.getD y 0 = s.stage.getD y 0) ∧
      t.stage.length = s.stage.length ∧
      (∀ a : Addr, a.toNat ≠ 0x10 + r.toNat → portRead t a = portRead s a) ∧
      { t with stage := s.stage } = s

/-- 40 R122: both flags at once from data bits 0 and 1, `SRC` only with `HAS_DIRECT_ANIM`; `OE_N` follows in the same
step; nothing else changes, and no other address reads differently. -/
def Obligations.WrCtrlWritesBothFlags : Prop :=
  ∀ (s : State) (data : Word), ∃ t, exec (.wrCtrl data) s = .next t ∧
    t.dispEn = data.getLsbD 0 ∧
    t.src = (s.cfg.hasDirectAnim && data.getLsbD 1) ∧
    t.oeN = !data.getLsbD 0 ∧
    (∀ a : Addr, a.toNat ≠ 0x00 → portRead t a = portRead s a) ∧
    { t with dispEn := s.dispEn, src := s.src } = s

/-- 40 R124, 42 R176: data bit 0 sets `CREQ`, 0 has no effect, a second request changes nothing; nothing else changes. -/
def Obligations.WrCommitOnlySetsTheRequest : Prop :=
  ∀ (s : State) (data : Word), ∃ t, exec (.wrCommit data) s = .next t ∧
    (data.getLsbD 0 = true → t.creq = true ∧ exec (.wrCommit data) t = .next t) ∧
    (data.getLsbD 0 = false → t = s) ∧
    (∀ a : Addr, a.toNat ≠ 0x01 → portRead t a = portRead s a) ∧
    { t with creq := s.creq } = s

/-- 40 R126: the index advances by one modulo `SW`, whatever the data is; nothing else changes (of the addresses, only
SCROLL and the VROW window can read differently). -/
def Obligations.WrScrollAdvancesTheIndex : Prop :=
  ∀ (s : State) (data : Word), ∃ t, exec (.wrScroll data) s = .next t ∧
    t.scrollIdx = (s.scrollIdx + 1) % s.cfg.sw ∧
    (s.scrollIdx + 1 < s.cfg.sw → t.scrollIdx = s.scrollIdx + 1) ∧
    (s.scrollIdx + 1 = s.cfg.sw → t.scrollIdx = 0) ∧
    (∀ a : Addr, a.toNat ≠ 0x02 → ¬ (0x20 ≤ a.toNat ∧ a.toNat < 0x20 + s.cfg.geo.h) →
      portRead t a = portRead s a) ∧
    { t with scrollIdx := s.scrollIdx } = s

/-- 40 R129, 44 R207, 30 R98: a write no other row takes and a bus command that is unknown or has no payload byte change
nothing at all. -/
def Obligations.IgnoredOperationsChangeNothing : Prop :=
  ∀ (s : State) (a : Addr) (data : Word) (op : Byte) (payload : List Byte),
    exec (.wrIgnored a data) s = .next s ∧
    exec (.unknownCommand op payload) s = .next s ∧
    exec (.setDisplay none) s = .next s ∧
    exec (.setScrollSpeed none) s = .next s ∧
    exec (.setDisplayMode none) s = .next s

/-- 40 R121, R123, R125, R127, R128, R129: what each read returns, bit by bit; a read changes nothing but `hp_rdata`. For
RD_SCROLL an index beyond 16 bits returns some word (notes/assumptions/11). -/
def Obligations.ReadsReturnTheirRegister : Prop :=
  ∀ (s : State) (r : RowIx) (a : Addr),
    (∃ v, exec .rdCtrl s = .next { s with hpRdata := v } ∧
      v.toNat = 2 * s.src.toNat + s.dispEn.toNat) ∧
    (∃ v, exec .rdCommit s = .next { s with hpRdata := v } ∧ v.toNat = s.creq.toNat) ∧
    (∃ v, exec .rdScroll s = .next { s with hpRdata := v } ∧
      (s.scrollIdx < 65536 → v.toNat = s.scrollIdx)) ∧
    exec (.rdStage r) s = .next { s with hpRdata := s.stage.getD r.toNat 0 } ∧
    exec (.rdVrow r) s = .next { s with hpRdata := visibleRowAt s.cfg s.scrollIdx r.toNat } ∧
    exec (.rdZero a) s = .next { s with hpRdata := 0 }

/-- 20_memory R62, R70: a read of any address of the host-port space returns what the map puts there, and has no side
effect. -/
def Obligations.EveryAddressReadsAsMapped : Prop :=
  ∀ (s : State) (a : Addr) (data : Word),
    exec (decodeWord s.cfg.geo (mkTrans false a data)) s = .next { s with hpRdata := portRead s a }

/-- 40 R121, 70_reset R305: a row written by one operation is read back by the very next one, cut to `W` bits; in
between and after, no row of the surface that is shown has changed. -/
def Obligations.StageReadsBackWhatWasWritten : Prop :=
  ∀ (s : State) (r : RowIx) (data : Word) (rest : List Input), s.Inv → s.host.pending = [] →
    r.toNat < s.cfg.geo.h →
    s.inputs = .op (encode (.wrStage r data)) :: .op (encode (.rdStage r)) :: rest →
    ∃ t, runSteps 2 s = .next t ∧ t.inputs = rest ∧
      t.hpRdata.toNat = data.toNat % 2 ^ s.cfg.geo.w ∧ t.active = s.active ∧ t.creq = s.creq

/-- 40 R131, 60 R276: no host-port word writes `ACTIVE`, `ROW`, `BLANK`, the chain, the lines or `TICK_PEND`, clears
`CREQ`, or reaches the pattern; and none loads the index: it stays or advances by one. -/
def Obligations.HostPortCannotReachTheScanState : Prop :=
  ∀ (s t : State) (w : Trans), exec (decodeWord s.cfg.geo w) s = .next t →
    t.active = s.active ∧ t.row = s.row ∧ t.blank = s.blank ∧ t.panel = s.panel ∧
    t.tickPend = s.tickPend ∧ t.cfg = s.cfg ∧ (s.creq = true → t.creq = true) ∧
    (t.scrollIdx = s.scrollIdx ∨ t.scrollIdx = (s.scrollIdx + 1) % s.cfg.sw) ∧
    t.host = s.host ∧ t.inputs = s.inputs

/-- 40 R126, 43 R188: `SW` successive advances return the index to where it was, and leave everything else but the
inputs they take. -/
def Obligations.ScrollReturnsAfterSwAdvances : Prop :=
  ∀ (s : State) (data : Word) (rest : List Input), s.Inv → s.host.pending = [] →
    s.inputs = List.replicate s.cfg.sw (.op (.word (mkTrans true 0x02#8 data))) ++ rest →
    runSteps s.cfg.sw s = .next { s with inputs := rest }

/-! The refresh tick -/

/-- 41 R148: the sequencer's step, on every tick. -/
def Obligations.TickAdvancesTheSequencer : Prop :=
  ∀ s : State, ∃ t, exec .tick s = .next t ∧
    (s.blank = 0 → t.row = (s.row + 1) % s.cfg.geo.h ∧ t.blank = s.cfg.b) ∧
    (0 < s.blank → t.row = s.row ∧ t.blank = s.blank - 1)

/-- 42 R172, 41 R149: the commit attempt, on the position step 3 has just written. -/
def Obligations.TickCopiesExactlyAtTheSafeInstant : Prop :=
  ∀ s : State, ∃ t, exec .tick s = .next t ∧
    (t.row = 0 → t.blank = s.cfg.b → s.creq = true → t.active = s.stage ∧ t.creq = false) ∧
    (¬ (t.row = 0 ∧ t.blank = s.cfg.b ∧ s.creq = true) → t.active = s.active ∧ t.creq = s.creq)

/-- 42 R174: the safe instant is on exactly one tick of a pass, the one that entered at `(H-1, 0)`. -/
def Obligations.SafeInstantEndsThePass : Prop :=
  ∀ s t : State, s.Inv → exec .tick s = .next t →
    ((t.row = 0 ∧ t.blank = s.cfg.b) ↔ (s.row = s.cfg.geo.h - 1 ∧ s.blank = 0))

/-- 41 R140 to R147: what a tick latches. A dark tick latches the all-dark code; a lit one the complement of the shown row
and a select word whose only 0 bit is `ROW`. The chain holds the same, `SER` the last bit sent, `SCLK` 0, `LATCH` 1. -/
def Obligations.TickLatchesItsCodes : Prop :=
  ∀ s : State, ∃ t, exec .tick s = .next t ∧
    (0 < s.blank ∨ s.dispEn = false → ∀ x, x < s.cfg.geo.w →
      (t.panel.qData s.cfg.geo).getLsbD x = true ∧ (t.panel.qSel s.cfg.geo).getLsbD x = true) ∧
    (s.blank = 0 → s.dispEn = true → ∀ x, x < s.cfg.geo.w →
      (t.panel.qData s.cfg.geo).getLsbD x =
        !(if s.src then visibleRowAt s.cfg s.scrollIdx s.row else s.active.getD s.row 0).getLsbD x ∧
      (t.panel.qSel s.cfg.geo).getLsbD x = decide (x ≠ s.row)) ∧
    t.panel.sr = t.panel.q ∧ t.panel.q.toNat < 2 ^ (2 * s.cfg.geo.w) ∧
    t.panel.ser = (t.panel.qSel s.cfg.geo).getLsbD 0 ∧ t.panel.sclk = false ∧ t.panel.latch = true

/-- 41 R145: both words of a dark tick are `0xFF` or `0xFFFF`, and `ACTIVE` is not read. -/
def Obligations.DarkTickSendsTheAllDarkCode : Prop :=
  ∀ (s : State) (other : List Word), 0 < s.blank ∨ s.dispEn = false →
    ∃ t u, exec .tick s = .next t ∧ exec .tick { s with active := other } = .next u ∧
      t.panel.q.toNat = (match s.cfg.geo with | .g8 => 0xFFFF | .g16 => 0xFFFFFFFF) ∧
      u.panel = t.panel

/-- 30_encoding R94, 41 R146: the frame of form S in time order, one `SCLK` rising edge for each bit, and what the chain
holds after it, whatever it held before; `Q` is not disturbed. -/
def Obligations.SerialFrameFillsTheChain : Prop :=
  ∀ (g : Geometry) (d sel : Word) (p : Panel), d.toNat < 2 ^ g.w → sel.toNat < 2 ^ g.w →
    (serialFrame g d sel).length = 2 * g.w ∧
    (∀ k, k < g.w → (serialFrame g d sel)[k]? = some (d.getLsbD (g.w - 1 - k))) ∧
    (∀ k, g.w ≤ k → k < 2 * g.w → (serialFrame g d sel)[k]? = some (sel.getLsbD (2 * g.w - 1 - k))) ∧
    shiftOut g sel g.w (shiftOut g d g.w p) =
      (serialFrame g d sel).foldl (fun c b => shiftBit g b c) p ∧
    (shiftOut g sel g.w (shiftOut g d g.w p)).sr.toNat = d.toNat * 2 ^ g.w + sel.toNat ∧
    (shiftOut g sel g.w (shiftOut g d g.w p)).q = p.q

/-- 41 R154, and the frame of a tick: it never writes `STAGE`, `DISP_EN`, `SRC`, `SCROLL_IDX`, the pattern; it never sets
`CREQ`; it reads `STAGE` only inside the copy. Nothing of MainFlow's is touched (60 R270: nothing was saved, nothing is
restored); that `hp_rdata` is kept is the model's choice (notes/assumptions/5). -/
def Obligations.TickFrame : Prop :=
  ∀ s : State, ∃ t, exec .tick s = .next t ∧
    t.stage = s.stage ∧ t.dispEn = s.dispEn ∧ t.src = s.src ∧ t.scrollIdx = s.scrollIdx ∧ t.cfg = s.cfg ∧
    (s.creq = false → t.creq = false) ∧
    (t.active = s.active ∨ t.active = s.stage) ∧
    (s.creq = true → t.creq = true → ∀ other,
      exec .tick { s with stage := other } = .next { t with stage := other }) ∧
    (s.creq = false → ∀ other, exec .tick { s with stage := other } = .next { t with stage := other }) ∧
    t.hpRdata = s.hpRdata ∧ t.host = s.host ∧ t.inputs = s.inputs ∧ t.nowMs = s.nowMs ∧ t.auxPin = s.auxPin ∧
    t.busReply = s.busReply ∧ t.freeCtr = s.freeCtr ∧ t.tickPend = false

/-- 41 R153: the invariants every tick keeps. -/
def Obligations.TickKeepsItsInvariants : Prop :=
  ∀ s t : State, s.Inv → exec .tick s = .next t →
    t.row < s.cfg.geo.h ∧ t.blank ≤ s.cfg.b ∧
    (∀ y z, y < s.cfg.geo.w → z < s.cfg.geo.w → (t.panel.qSel s.cfg.geo).getLsbD y = false →
      (t.panel.qSel s.cfg.geo).getLsbD z = false → y = z) ∧
    (t.panel.qSel s.cfg.geo = ones s.cfg.geo.w → t.panel.qData s.cfg.geo = ones s.cfg.geo.w) ∧
    (t.active = s.active ∨ t.active = s.stage)

/-- 10_state R41, 41 R142 to R145: what the panel shows after a tick: of the row the tick stood at, on its one lit tick
and with the display enabled, exactly the lit pixels of the shown row; nothing otherwise. -/
def Obligations.PanelShowsTheScannedRow : Prop :=
  ∀ (s : State) (x y : Nat), ∃ t, exec .tick s = .next t ∧
    (lit t x y = true ↔
      s.dispEn = true ∧ s.blank = 0 ∧ y = s.row ∧ x < s.cfg.geo.w ∧ y < s.cfg.geo.h ∧
        (if s.src then visibleRowAt s.cfg s.scrollIdx s.row else s.active.getD s.row 0).getLsbD x = true)

/-- 10_state R26, 41 R150: ticks go through the `H * (B + 1)` positions of a pass in their fixed cyclic order. -/
def Obligations.TicksGoRoundThePositions : Prop :=
  ∀ (n : Nat) (s : State) (rest : List Input), s.Inv → s.inputs = List.replicate n tickInput ++ rest →
    ∃ t, runSteps n s = .next t ∧ t.inputs = rest ∧
      position t = (position s + n) % passLength s.cfg ∧ position t < passLength s.cfg

/-- 41 R151, 60 R272, R303: the display enable, the row source and the index steer neither the sequencer nor the commit. -/
def Obligations.DisplayEnableDoesNotSteerTheScan : Prop :=
  ∀ (s : State) (en sr : Bool) (idx : Nat),
    ∃ t u, exec .tick s = .next t ∧ exec .tick { s with dispEn := en, src := sr, scrollIdx := idx } = .next u ∧
      u.row = t.row ∧ u.blank = t.blank ∧ u.active = t.active ∧ u.creq = t.creq ∧ u.stage = t.stage

/-! The commit handshake over runs -/

/-- 20_memory R75, 42 R176, R180: with a request pending, whatever host-port operations fall between the ticks, the copy
comes within `H * (B + 1)` ticks; until then the request stands and `ACTIVE` does not change; the copy takes `STAGE` as
it then stands, whole. -/
def Obligations.CommitIsServedWithinOnePass : Prop :=
  ∀ s : State, s.Inv → s.host.pending = [] → s.creq = true →
    (∀ e ∈ s.inputs, e = tickInput ∨ ∃ w, e = .op (.word w)) →
    passLength s.cfg ≤ s.inputs.count tickInput →
    ∃ (n : Nat) (u t : State),
      (s.inputs.take (n + 1)).count tickInput ≤ passLength s.cfg ∧
      (∀ m, m ≤ n → ∃ v, runSteps m s = .next v ∧ v.creq = true ∧ v.active = s.active) ∧
      runSteps n s = .next u ∧ u.inputs = s.inputs.drop n ∧ u.inputs.head? = some tickInput ∧
      step u = .next t ∧ t.active = u.stage ∧ t.creq = false ∧ t.row = 0 ∧ t.blank = s.cfg.b

/-- 10_state R23, 42 R172, R175: in one step `ACTIVE` stays, or becomes the whole of `STAGE` with the request consumed at
the safe instant, or is reset. -/
def Obligations.ActiveChangesOnlyByAWholeCopy : Prop :=
  ∀ s t : State, step s = .next t →
    t.active = s.active ∨
    (s.creq = true ∧ t.creq = false ∧ t.active = s.stage ∧ t.stage = s.stage ∧ t.row = 0 ∧ t.blank = s.cfg.b) ∨
    (s.inputs.head? = some (.op .rst) ∧ t.active = List.replicate s.cfg.geo.h 0)

/-- 42 R175, 20_memory R76, tear-freedom over runs without reset: `ACTIVE` is the surface it was at the start, or the whole
of `STAGE` as it stood, with a request pending, at some earlier point of the run. -/
def Obligations.ActiveIsAlwaysOneCommittedFrame : Prop :=
  ∀ (n : Nat) (s t : State), (∀ e ∈ s.inputs, e ≠ .op .rst) → runSteps n s = .next t →
    t.active = s.active ∨
    ∃ m u, m < n ∧ runSteps m s = .next u ∧ u.creq = true ∧ t.active = u.stage

/-- 42 R177, R178: nothing but the copy (and reset) clears a request. -/
def Obligations.NoCommitRequestIsLost : Prop :=
  ∀ s t : State, step s = .next t → s.creq = true → s.inputs.head? ≠ some (.op .rst) →
    t.creq = true ∨ (t.active = s.stage ∧ t.row = 0 ∧ t.blank = s.cfg.b)

/-! The animation source -/

/-- 43 R186: bit `j` of the visible row is the complement of bit `(j - idx) mod SW` of the pattern row, and there are `W`
bits. -/
def Obligations.VisibleRowRotatesTheInvertedPattern : Prop :=
  ∀ (c : Config) (idx r j : Nat), legalConfig c = true → idx < c.sw → r < c.geo.h →
    (visibleRowAt c idx r).getLsbD j =
      (decide (j < c.geo.w) && !(c.pattern.getD r 0).testBit ((j + c.sw - idx) % c.sw))

/-- 43 R187, R188: at index 0 the visible row is the low `W` bits of the inverted pattern row; one advance moves every
visible bit one column up. -/
def Obligations.AdvanceMovesTheVisibleRowOneColumn : Prop :=
  ∀ (c : Config) (idx r j : Nat), legalConfig c = true → idx < c.sw → r < c.geo.h →
    (visibleRowAt c 0 r).toNat = (2 ^ c.sw - 1 - c.pattern.getD r 0) % 2 ^ c.geo.w ∧
    (j + 1 < c.geo.w →
      (visibleRowAt c ((idx + 1) % c.sw) r).getLsbD (j + 1) = (visibleRowAt c idx r).getLsbD j)

/-! Reset -/

/-- 10_state R47, 70_reset R290, R293: RESET gives every piece of block state and of the host environment its reset value,
from every state; `SR` and `Q` hold some `2W`-bit value. What belongs to the environment stays (notes/assumptions/19);
the overlay's text and start are the model's choice (notes/assumptions/16), and a direct-path host whose first mode is
Animation has its SET_SRC still to issue (notes/assumptions/13). -/
def Obligations.ResetGivesEveryResetValue : Prop :=
  ∀ s : State, ∃ t, exec .reset s = .next t ∧
    t.cfg = s.cfg ∧
    t.stage.length = s.cfg.geo.h ∧ (∀ v ∈ t.stage, v = 0) ∧
    t.active.length = s.cfg.geo.h ∧ (∀ v ∈ t.active, v = 0) ∧
    t.creq = false ∧ t.row = 0 ∧ t.blank = s.cfg.b ∧ t.dispEn = s.cfg.resetDispEn ∧ t.src = false ∧
    t.scrollIdx = s.cfg.scrollInit ∧ t.tickPend = false ∧ t.hpReady = true ∧
    t.panel.ser = false ∧ t.panel.sclk = false ∧ t.panel.latch = true ∧ t.oeN = !s.cfg.resetDispEn ∧
    t.panel.sr.toNat < 2 ^ (2 * s.cfg.geo.w) ∧ t.panel.q.toNat < 2 ^ (2 * s.cfg.geo.w) ∧
    t.host.msg.text = s.cfg.host.msgInit ∧ t.host.msg.cursor = s.cfg.geo.w ∧
    t.host.msg.width = (s.cfg.host.msgInit.map (charWidth s.cfg.host.font)).sum ∧
    t.host.mode = s.cfg.host.modeInit ∧ t.host.intervalMs = s.cfg.host.intervalInit ∧
    t.host.overlayActive = false ∧ t.host.changed = true ∧ t.host.lastDrawMs = 0 ∧
    (s.cfg.host.directAnim = false → t.host.pending = []) ∧
    t.inputs = s.inputs ∧ t.nowMs = s.nowMs ∧ t.auxPin = s.auxPin ∧ t.busReply = s.busReply

/-! Control-bus commands -/

/-- 44 R201: a `setDisplay` with a payload byte, run to its end with no tick between, makes `DISP_EN` 1 for a non-zero byte
and 0 for zero; of the rest of the state only `hp_rdata` has changed, by the read it makes. -/
def Obligations.SetDisplayEnablesOrDisables : Prop :=
  ∀ (s : State) (b : Byte), s.Inv → s.host.pending = [] → s.inputs = [] →
    ∃ t u, exec (.setDisplay (some b)) s = .next t ∧
      { t with host.pending := [] } = s ∧
      runSteps 2 t = .next u ∧
      u.dispEn = decide (b.toNat ≠ 0) ∧
      { u with dispEn := s.dispEn, hpRdata := s.hpRdata } = s

/-- 30_encoding R101, 60 R268: any number of ticks may fall between the read and the write of SET_DISPLAY, without harm. -/
def Obligations.TicksInsideSetDisplayDoNoHarm : Prop :=
  ∀ (s : State) (b : Byte) (n : Nat) (rest : List Input), s.Inv → s.host.pending = [] →
    s.inputs = .go :: (List.replicate n tickInput ++ .go :: rest) →
    ∃ t u, exec (.setDisplay (some b)) s = .next t ∧ runSteps (n + 2) t = .next u ∧
      u.dispEn = decide (b.toNat ≠ 0) ∧ u.src = s.src ∧ u.stage = s.stage ∧ u.scrollIdx = s.scrollIdx ∧
      u.host = s.host ∧ u.inputs = rest ∧ position u = (position s + n) % passLength s.cfg

/-- 44 R202, 45 R226, R227: the message is replaced wholesale by the first `MSG_CAP` characters, measured, its cursor at
`W`; the content-changed flag is set; nothing else changes, the block among it. -/
def Obligations.SetMessageReplacesTheMessage : Prop :=
  ∀ (s : State) (text : List Byte), ∃ t, exec (.setMessage text) s = .next t ∧
    t.host.msg.text = text.take s.cfg.host.msgCap ∧
    t.host.msg.width = ((text.take s.cfg.host.msgCap).map (charWidth s.cfg.host.font)).sum ∧
    t.host.msg.cursor = s.cfg.geo.w ∧ t.host.changed = true ∧
    { t with host.msg := s.host.msg, host.changed := s.host.changed } = s

/-- 44 R203: the draw interval of a speed byte: the linear inverse map, its two ends, always inside the range, and a higher
speed is never slower; nothing else changes. -/
def Obligations.SetScrollSpeedMapsInversely : Prop :=
  ∀ (s : State) (v : Byte), ∃ t, exec (.setScrollSpeed (some v)) s = .next t ∧
    { t with host.intervalMs := s.host.intervalMs } = s ∧
    (s.cfg.host.intervalMin ≤ s.cfg.host.intervalMax →
      t.host.intervalMs = s.cfg.host.intervalMax -
        (min v.toNat 100) * (s.cfg.host.intervalMax - s.cfg.host.intervalMin) / 100 ∧
      s.cfg.host.intervalMin ≤ t.host.intervalMs ∧ t.host.intervalMs ≤ s.cfg.host.intervalMax ∧
      (v.toNat = 0 → t.host.intervalMs = s.cfg.host.intervalMax) ∧
      (100 ≤ v.toNat → t.host.intervalMs = s.cfg.host.intervalMin) ∧
      (∀ (v2 : Byte) (t2 : State), v.toNat ≤ v2.toNat → exec (.setScrollSpeed (some v2)) s = .next t2 →
        t2.host.intervalMs ≤ t.host.intervalMs))

/-- 44 R204: 0 Animation, 1 ScrollingText, 2 StaticText (which also sets the content-changed flag), any other identifier
ignored; the command changes only these two and, on the direct path, what MainFlow has still to do. That 2 sets the flag
also when StaticText is selected already, and that 0 and 1 never set it, is the model's reading (notes/assumptions/22). -/
def Obligations.SetDisplayModeSelectsTheProducer : Prop :=
  ∀ (s : State) (m : Byte),
    (∀ k : Mode, (m.toNat = 0 ∧ k = .animation) ∨ (m.toNat = 1 ∧ k = .scrollingText) ∨
        (m.toNat = 2 ∧ k = .staticText) →
      ∃ t, exec (.setDisplayMode (some m)) s = .next t ∧ t.host.mode = k ∧
        (k = .staticText → t.host.changed = true) ∧ (k ≠ .staticText → t.host.changed = s.host.changed) ∧
        (s.cfg.host.directAnim = false → t.host.pending = s.host.pending) ∧
        { t with host.mode := s.host.mode, host.changed := s.host.changed, host.pending := s.host.pending } = s) ∧
    (2 < m.toNat → exec (.setDisplayMode (some m)) s = .next s)

/-- 45 R238 (with the model's reading of it, notes/assumptions/13): a host on the direct path switches `SRC` to the pattern
on entering Animation mode and back to the surface on leaving it, and the display enable is kept. -/
def Obligations.DirectPathHostSwitchesTheSource : Prop :=
  ∀ (s : State) (m : Byte), s.Inv → s.host.pending = [] → s.inputs = [] → s.cfg.host.directAnim = true →
    s.cfg.hasDirectAnim = true → s.host.overlayActive = false →
    (m.toNat = 0 ∧ s.host.mode ≠ .animation) ∨ ((m.toNat = 1 ∨ m.toNat = 2) ∧ s.host.mode = .animation) →
    ∃ t u, exec (.setDisplayMode (some m)) s = .next t ∧ runSteps 2 t = .next u ∧
      u.src = decide (m.toNat = 0) ∧ u.dispEn = s.dispEn ∧ u.host.pending = [] ∧
      u.stage = s.stage ∧ u.active = s.active ∧ u.creq = s.creq

/-- 44 R206, 45 R221, R222, R234: `showTempMessage`, run to its end with no tick between: `STAGE` shows exactly the pixels
that `drawString` plots inside the surface, a commit is requested, and the overlay is on since now; the base message and
its cursor, the surface that is shown and the scan are untouched. -/
def Obligations.ShowTempMessagePaintsTheOverlay : Prop :=
  ∀ (s : State) (text : List Byte), s.Inv → s.host.pending = [] → s.inputs = [] →
    ∃ t u, exec (.showTempMessage text) s = .next t ∧
      { t with host.pending := [], host.overlayText := s.host.overlayText } = s ∧
      runSteps t.host.pending.length t = .next u ∧
      (∀ x y : Nat, x < s.cfg.geo.w → y < s.cfg.geo.h →
        (pixel u.stage x y = true ↔
          ((x : Int), (y : Int)) ∈ stringPixels s.cfg.host.font s.cfg.host.overlayX s.cfg.host.overlayY
            s.cfg.geo.w s.cfg.geo.h (text.take s.cfg.host.msgCap))) ∧
      u.creq = true ∧
      u.host = { s.host with
        overlayText := text.take s.cfg.host.msgCap, overlayActive := true, overlayStartMs := s.nowMs } ∧
      u.active = s.active ∧ u.row = s.row ∧ u.blank = s.blank ∧ u.panel = s.panel ∧ u.dispEn = s.dispEn ∧
      u.scrollIdx = s.scrollIdx ∧
      u.src = (s.src && !(s.cfg.host.directAnim && s.host.mode == .animation))

/-! The main loop and the producers -/

/-- 45 R236, R239, R242: an iteration of the main loop does nothing while the display is disabled, while the overlay is
shown and has not expired, and while no redraw is due. That it looks at `DISP_EN` without a host-port operation is the
model's choice (notes/assumptions/26). -/
def Obligations.MainLoopWithNothingDueChangesNothing : Prop :=
  ∀ (s : State) (rest : List Input), legalConfig s.cfg = true → s.tickPend = false → s.host.pending = [] →
    s.inputs = .loop :: rest →
    (s.dispEn = false ∨
      (s.host.overlayActive = true ∧ s.nowMs < s.host.overlayStartMs + s.cfg.host.overlayMs) ∨
      (s.host.overlayActive = false ∧ s.nowMs < s.host.lastDrawMs + s.host.intervalMs)) →
    step s = .next { s with inputs := rest }

/-- 45 R235, R240: the overlay ends in the first poll once `OVERLAY_MS` have passed, the content-changed flag is set, and
the mode is the one selected; with no redraw due nothing else happens but, on the direct path in Animation mode, R238's
`SET_SRC 1` "at the revert": with or without a redraw due, MainFlow's routine then ends with `SRC` 1 and neither surface
painted. The poll looks at `DISP_EN` without a host-port operation (the model's choice, notes/assumptions/26). -/
def Obligations.OverlayExpires : Prop :=
  ∀ (s : State) (rest : List Input), legalConfig s.cfg = true → s.tickPend = false → s.host.pending = [] →
    s.inputs = .loop :: rest → s.dispEn = true → s.host.overlayActive = true →
    s.host.overlayStartMs + s.cfg.host.overlayMs ≤ s.nowMs →
    ∃ t, step s = .next t ∧ t.host.overlayActive = false ∧ t.host.changed = true ∧ t.host.mode = s.host.mode ∧
      (s.nowMs < s.host.lastDrawMs + s.host.intervalMs →
        { t with host.overlayActive := true, host.changed := s.host.changed, host.pending := [] } =
          { s with inputs := rest } ∧
        (s.cfg.host.directAnim = false ∨ s.host.mode ≠ .animation → t.host.pending = [])) ∧
      (s.cfg.host.directAnim = true → s.cfg.hasDirectAnim = true → s.host.mode = .animation → rest = [] →
        ∃ u, runSteps t.host.pending.length t = .next u ∧ u.host.pending = [] ∧ u.src = true ∧ u.dispEn = true ∧
          u.stage = s.stage ∧ u.active = s.active ∧ u.creq = s.creq)

/-- 45 R228: after `setMessage` the cursor is `W`; after `k` calls it is `W - k`, down to `-width`; the next call wraps, so
`W + width + 1` calls are a cycle. -/
def Obligations.ScrollCursorCycles : Prop :=
  ∀ (w : Nat) (m : Message), m.cursor = w →
    (∀ k : Nat, k ≤ w + m.width → ((scrollTick w)^[k] m).cursor = (w : Int) - k) ∧
    (scrollTick w)^[w + m.width + 1] m = m

/-- 45 R229, R241: a scrolling redraw that is due moves the cursor one pixel, paints `STAGE` with exactly the pixels of the
message at the new cursor, and requests a commit; the flags and the index are as before. -/
def Obligations.ScrollingRedrawPaintsTheMessage : Prop :=
  ∀ s : State, s.Inv → s.host.pending = [] → s.inputs = [.loop] → s.dispEn = true →
    s.host.overlayActive = false → s.host.mode = .scrollingText →
    s.host.lastDrawMs + s.host.intervalMs ≤ s.nowMs →
    ∃ t u, step s = .next t ∧ runSteps t.host.pending.length t = .next u ∧
      u.host.msg.cursor =
        (if s.host.msg.cursor - 1 < -(s.host.msg.width : Int) then (s.cfg.geo.w : Int) else s.host.msg.cursor - 1) ∧
      { u.host with msg.cursor := s.host.msg.cursor } = { s.host with lastDrawMs := s.nowMs } ∧
      (∀ x y : Nat, x < s.cfg.geo.w → y < s.cfg.geo.h →
        (pixel u.stage x y = true ↔
          ((x : Int), (y : Int)) ∈ stringPixels s.cfg.host.font u.host.msg.cursor s.cfg.host.textY
            s.cfg.geo.w s.cfg.geo.h s.host.msg.text)) ∧
      u.creq = true ∧ u.active = s.active ∧ u.row = s.row ∧ u.blank = s.blank ∧ u.panel = s.panel ∧
      u.dispEn = s.dispEn ∧ u.src = s.src ∧ u.scrollIdx = s.scrollIdx

/-- 45 R230: a static redraw paints and commits only when the content has changed, and then clears the flag; otherwise it
issues no host-port operation at all (nor for `DISP_EN`: the model's choice, notes/assumptions/26). The other flags and the
index are as before. -/
def Obligations.StaticRedrawOnlyWhenChanged : Prop :=
  ∀ s : State, s.Inv → s.host.pending = [] → s.inputs = [.loop] → s.dispEn = true →
    s.host.overlayActive = false → s.host.mode = .staticText →
    s.host.lastDrawMs + s.host.intervalMs ≤ s.nowMs →
    (s.host.changed = false → step s = .next { s with inputs := [], host.lastDrawMs := s.nowMs }) ∧
    (s.host.changed = true → ∃ t u, step s = .next t ∧ runSteps t.host.pending.length t = .next u ∧
      u.host = { s.host with lastDrawMs := s.nowMs, changed := false } ∧
      (∀ x y : Nat, x < s.cfg.geo.w → y < s.cfg.geo.h →
        (pixel u.stage x y = true ↔
          ((x : Int), (y : Int)) ∈ stringPixels s.cfg.host.font s.cfg.host.staticX s.cfg.host.staticY
            s.cfg.geo.w s.cfg.geo.h s.host.msg.text)) ∧
      u.creq = true ∧ u.active = s.active ∧ u.row = s.row ∧ u.blank = s.blank ∧ u.panel = s.panel ∧
      u.dispEn = s.dispEn ∧ u.src = s.src ∧ u.scrollIdx = s.scrollIdx)

/-- 45 R237, R238: an animation redraw advances the index by one; on the staging path it then paints every row of `STAGE`
with the visible row of the new index and requests a commit; on the direct path it does nothing more. `DISP_EN` and `SRC`
are as before. -/
def Obligations.AnimationRedrawPaintsTheVisibleRows : Prop :=
  ∀ s : State, s.Inv → s.host.pending = [] → s.inputs = [.loop] → s.dispEn = true →
    s.host.overlayActive = false → s.host.mode = .animation →
    s.host.lastDrawMs + s.host.intervalMs ≤ s.nowMs →
    ∃ t u, step s = .next t ∧ runSteps t.host.pending.length t = .next u ∧
      u.scrollIdx = (s.scrollIdx + 1) % s.cfg.sw ∧
      u.host = { s.host with lastDrawMs := s.nowMs } ∧
      u.active = s.active ∧ u.row = s.row ∧ u.blank = s.blank ∧ u.panel = s.panel ∧
      u.dispEn = s.dispEn ∧ u.src = s.src ∧
      (s.cfg.host.directAnim = false →
        (∀ r, r < s.cfg.geo.h → u.stage.getD r 0 = visibleRowAt s.cfg u.scrollIdx r) ∧ u.creq = true) ∧
      (s.cfg.host.directAnim = true → u.stage = s.stage ∧ u.creq = s.creq)

/-- 40 R130: PLOT makes one pixel lit or unlit and changes no other pixel of `STAGE` and nothing else of the block;
outside the surface it issues nothing. -/
def Obligations.PlotWritesOnePixelAndClips : Prop :=
  ∀ (s : State) (x y : Int) (c : Bool), s.Inv → s.inputs = [] →
    s.host.pending = plotOps s.cfg.geo c (x, y) →
    ∃ u, runSteps s.host.pending.length s = .next u ∧
      { u with stage := s.stage, hpRdata := s.hpRdata, host.pending := s.host.pending } = s ∧
      (∀ i j : Nat, i < s.cfg.geo.w → j < s.cfg.geo.h →
        pixel u.stage i j = if (i : Int) = x ∧ (j : Int) = y then c else pixel s.stage i j) ∧
      (¬ (0 ≤ x ∧ x < s.cfg.geo.w ∧ 0 ≤ y ∧ y < s.cfg.geo.h) → u = s)

/-- 20_memory R66, 45 R217 to R223. Bit `k` of the blob is bit `7 - (k mod 8)` of byte `floor(k / 8)`. `drawChar` plots
exactly the set bits of the glyph `glyphs[c - first]`, `width * height` of them at most, each at its offset; a code outside
the font's range plots nothing and has width 0. `drawString` plots nothing for a `y` outside `[0, maxY)`; otherwise each
character is drawn at the sum of the widths before it, left of the origin too, as long as that cursor is below `maxX`. -/
def Obligations.DrawingFollowsTheFontTable : Prop :=
  ∀ (f : Font) (x y px py : Int),
    (∀ k, k / 8 < f.blob.length → blobBit f k = (f.blob.getD (k / 8) 0).getLsbD (7 - k % 8)) ∧
    (∀ (c : Byte) (g : Glyph), f.first ≤ c.toNat → c.toNat ≤ f.last → f.glyphs[c.toNat - f.first]? = some g →
      ((px, py) ∈ charPixels f x y c ↔ ∃ row col : Nat, row < g.height ∧ col < g.width ∧
        blobBit f (g.bitOffset + row * g.width + col) = true ∧
        px = x + g.xOffset + col ∧ py = y + g.yOffset + row) ∧
      (charPixels f x y c).length ≤ g.width * g.height ∧ charWidth f c = g.xAdvance) ∧
    (∀ c : Byte, c.toNat < f.first ∨ f.last < c.toNat → charPixels f x y c = [] ∧ charWidth f c = 0) ∧
    (∀ (maxX maxY : Int) (text : List Byte),
      (y < 0 ∨ maxY ≤ y → stringPixels f x y maxX maxY text = []) ∧
      (0 ≤ y → y < maxY →
        ((px, py) ∈ stringPixels f x y maxX maxY text ↔ ∃ (k : Nat) (c : Byte), text[k]? = some c ∧
          x + ((text.take k).map (charWidth f)).sum < maxX ∧
          (px, py) ∈ charPixels f (x + ((text.take k).map (charWidth f)).sum) y c)))

/-- 44 R205: a bus read request returns one status byte, the auxiliary pin's level in one fixed polarity (which one is
open, notes/assumptions/12), and changes nothing else. 20_memory R61: a cycle of the host port with the write strobe is the
write word, with the read strobe alone the read word, with neither no operation (both at once are a write). 45 R241: the
clock shows what the environment last supplied; the pin has the level it was last driven to. -/
def Obligations.BusReadStrobesClockAndPin : Prop :=
  ∃ polarity : Bool, ∀ (s : State) (rest : List Input) (a : Addr) (data : Word),
    legalConfig s.cfg = true → s.tickPend = false →
    (s.inputs = .busRead :: rest → ∃ v : Byte, v.toNat = (s.auxPin ^^ polarity).toNat ∧
      step s = .next { s with inputs := rest, busReply := v }) ∧
    (∀ re, s.host.pending = [] → s.inputs = .cycle true re a data :: rest →
      step s = exec (decodeWord s.cfg.geo (mkTrans true a data)) { s with inputs := rest }) ∧
    (s.host.pending = [] → s.inputs = .cycle false true a data :: rest →
      step s = exec (decodeWord s.cfg.geo (mkTrans false a data)) { s with inputs := rest }) ∧
    (s.host.pending = [] → s.inputs = .cycle false false a data :: rest → step s = .next { s with inputs := rest }) ∧
    (∀ ms, s.inputs = .clock ms :: rest → step s = .next { s with inputs := rest, nowMs := ms }) ∧
    (∀ level, s.inputs = .aux level :: rest → step s = .next { s with inputs := rest, auxPin := level })
end

