-- ==== Sys2Proof/Laws/State.lean ====
section
/-! SUPPORT. One lemma for each field of State and each named update: what the update leaves, and what it writes. -/

namespace Sys2Proof.Machine

/-! `setStageRow` -/

@[simp] theorem setStageRow_cfg (r : Nat) (d : Word) (s : State) : (setStageRow r d s).cfg = s.cfg := rfl
@[simp] theorem setStageRow_stage (r : Nat) (d : Word) (s : State) :
    (setStageRow r d s).stage = s.stage.set r (rowData s.cfg.geo d) := rfl
@[simp] theorem setStageRow_active (r : Nat) (d : Word) (s : State) : (setStageRow r d s).active = s.active := rfl
@[simp] theorem setStageRow_row (r : Nat) (d : Word) (s : State) : (setStageRow r d s).row = s.row := rfl
@[simp] theorem setStageRow_blank (r : Nat) (d : Word) (s : State) : (setStageRow r d s).blank = s.blank := rfl
@[simp] theorem setStageRow_creq (r : Nat) (d : Word) (s : State) : (setStageRow r d s).creq = s.creq := rfl
@[simp] theorem setStageRow_dispEn (r : Nat) (d : Word) (s : State) : (setStageRow r d s).dispEn = s.dispEn := rfl
@[simp] theorem setStageRow_src (r : Nat) (d : Word) (s : State) : (setStageRow r d s).src = s.src := rfl
@[simp] theorem setStageRow_scrollIdx (r : Nat) (d : Word) (s : State) :
    (setStageRow r d s).scrollIdx = s.scrollIdx := rfl
@[simp] theorem setStageRow_tickPend (r : Nat) (d : Word) (s : State) :
    (setStageRow r d s).tickPend = s.tickPend := rfl
@[simp] theorem setStageRow_panel (r : Nat) (d : Word) (s : State) : (setStageRow r d s).panel = s.panel := rfl
@[simp] theorem setStageRow_hpRdata (r : Nat) (d : Word) (s : State) : (setStageRow r d s).hpRdata = s.hpRdata := rfl
@[simp] theorem setStageRow_host (r : Nat) (d : Word) (s : State) : (setStageRow r d s).host = s.host := rfl
@[simp] theorem setStageRow_inputs (r : Nat) (d : Word) (s : State) : (setStageRow r d s).inputs = s.inputs := rfl
@[simp] theorem setStageRow_nowMs (r : Nat) (d : Word) (s : State) : (setStageRow r d s).nowMs = s.nowMs := rfl
@[simp] theorem setStageRow_auxPin (r : Nat) (d : Word) (s : State) : (setStageRow r d s).auxPin = s.auxPin := rfl
@[simp] theorem setStageRow_busReply (r : Nat) (d : Word) (s : State) :
    (setStageRow r d s).busReply = s.busReply := rfl
@[simp] theorem setStageRow_freeCtr (r : Nat) (d : Word) (s : State) : (setStageRow r d s).freeCtr = s.freeCtr := rfl

/-! `setRdata` -/

@[simp] theorem setRdata_cfg (v : Word) (s : State) : (setRdata v s).cfg = s.cfg := rfl
@[simp] theorem setRdata_stage (v : Word) (s : State) : (setRdata v s).stage = s.stage := rfl
@[simp] theorem setRdata_active (v : Word) (s : State) : (setRdata v s).active = s.active := rfl
@[simp] theorem setRdata_row (v : Word) (s : State) : (setRdata v s).row = s.row := rfl
@[simp] theorem setRdata_blank (v : Word) (s : State) : (setRdata v s).blank = s.blank := rfl
@[simp] theorem setRdata_creq (v : Word) (s : State) : (setRdata v s).creq = s.creq := rfl
@[simp] theorem setRdata_dispEn (v : Word) (s : State) : (setRdata v s).dispEn = s.dispEn := rfl
@[simp] theorem setRdata_src (v : Word) (s : State) : (setRdata v s).src = s.src := rfl
@[simp] theorem setRdata_scrollIdx (v : Word) (s : State) : (setRdata v s).scrollIdx = s.scrollIdx := rfl
@[simp] theorem setRdata_tickPend (v : Word) (s : State) : (setRdata v s).tickPend = s.tickPend := rfl
@[simp] theorem setRdata_panel (v : Word) (s : State) : (setRdata v s).panel = s.panel := rfl
@[simp] theorem setRdata_hpRdata (v : Word) (s : State) : (setRdata v s).hpRdata = v := rfl
@[simp] theorem setRdata_host (v : Word) (s : State) : (setRdata v s).host = s.host := rfl
@[simp] theorem setRdata_inputs (v : Word) (s : State) : (setRdata v s).inputs = s.inputs := rfl
@[simp] theorem setRdata_nowMs (v : Word) (s : State) : (setRdata v s).nowMs = s.nowMs := rfl
@[simp] theorem setRdata_auxPin (v : Word) (s : State) : (setRdata v s).auxPin = s.auxPin := rfl
@[simp] theorem setRdata_busReply (v : Word) (s : State) : (setRdata v s).busReply = s.busReply := rfl
@[simp] theorem setRdata_freeCtr (v : Word) (s : State) : (setRdata v s).freeCtr = s.freeCtr := rfl

/-! `advanceIndex` -/

@[simp] theorem advanceIndex_cfg (s : State) : (advanceIndex s).cfg = s.cfg := rfl
@[simp] theorem advanceIndex_stage (s : State) : (advanceIndex s).stage = s.stage := rfl
@[simp] theorem advanceIndex_active (s : State) : (advanceIndex s).active = s.active := rfl
@[simp] theorem advanceIndex_row (s : State) : (advanceIndex s).row = s.row := rfl
@[simp] theorem advanceIndex_blank (s : State) : (advanceIndex s).blank = s.blank := rfl
@[simp] theorem advanceIndex_creq (s : State) : (advanceIndex s).creq = s.creq := rfl
@[simp] theorem advanceIndex_dispEn (s : State) : (advanceIndex s).dispEn = s.dispEn := rfl
@[simp] theorem advanceIndex_src (s : State) : (advanceIndex s).src = s.src := rfl
@[simp] theorem advanceIndex_scrollIdx (s : State) : (advanceIndex s).scrollIdx = (s.scrollIdx + 1) % s.cfg.sw := rfl
@[simp] theorem advanceIndex_tickPend (s : State) : (advanceIndex s).tickPend = s.tickPend := rfl
@[simp] theorem advanceIndex_panel (s : State) : (advanceIndex s).panel = s.panel := rfl
@[simp] theorem advanceIndex_hpRdata (s : State) : (advanceIndex s).hpRdata = s.hpRdata := rfl
@[simp] theorem advanceIndex_host (s : State) : (advanceIndex s).host = s.host := rfl
@[simp] theorem advanceIndex_inputs (s : State) : (advanceIndex s).inputs = s.inputs := rfl
@[simp] theorem advanceIndex_nowMs (s : State) : (advanceIndex s).nowMs = s.nowMs := rfl
@[simp] theorem advanceIndex_auxPin (s : State) : (advanceIndex s).auxPin = s.auxPin := rfl
@[simp] theorem advanceIndex_busReply (s : State) : (advanceIndex s).busReply = s.busReply := rfl
@[simp] theorem advanceIndex_freeCtr (s : State) : (advanceIndex s).freeCtr = s.freeCtr := rfl

/-! `writeCtrlFlags` -/

@[simp] theorem writeCtrlFlags_cfg (d : Word) (s : State) : (writeCtrlFlags d s).cfg = s.cfg := rfl
@[simp] theorem writeCtrlFlags_stage (d : Word) (s : State) : (writeCtrlFlags d s).stage = s.stage := rfl
@[simp] theorem writeCtrlFlags_active (d : Word) (s : State) : (writeCtrlFlags d s).active = s.active := rfl
@[simp] theorem writeCtrlFlags_row (d : Word) (s : State) : (writeCtrlFlags d s).row = s.row := rfl
@[simp] theorem writeCtrlFlags_blank (d : Word) (s : State) : (writeCtrlFlags d s).blank = s.blank := rfl
@[simp] theorem writeCtrlFlags_creq (d : Word) (s : State) : (writeCtrlFlags d s).creq = s.creq := rfl
@[simp] theorem writeCtrlFlags_dispEn (d : Word) (s : State) : (writeCtrlFlags d s).dispEn = dataBit0 d := rfl
@[simp] theorem writeCtrlFlags_src (d : Word) (s : State) :
    (writeCtrlFlags d s).src = (s.cfg.hasDirectAnim && dataBit1 d) := rfl
@[simp] theorem writeCtrlFlags_scrollIdx (d : Word) (s : State) : (writeCtrlFlags d s).scrollIdx = s.scrollIdx := rfl
@[simp] theorem writeCtrlFlags_tickPend (d : Word) (s : State) : (writeCtrlFlags d s).tickPend = s.tickPend := rfl
@[simp] theorem writeCtrlFlags_panel (d : Word) (s : State) : (writeCtrlFlags d s).panel = s.panel := rfl
@[simp] theorem writeCtrlFlags_hpRdata (d : Word) (s : State) : (writeCtrlFlags d s).hpRdata = s.hpRdata := rfl
@[simp] theorem writeCtrlFlags_host (d : Word) (s : State) : (writeCtrlFlags d s).host = s.host := rfl
@[simp] theorem writeCtrlFlags_inputs (d : Word) (s : State) : (writeCtrlFlags d s).inputs = s.inputs := rfl
@[simp] theorem writeCtrlFlags_nowMs (d : Word) (s : State) : (writeCtrlFlags d s).nowMs = s.nowMs := rfl
@[simp] theorem writeCtrlFlags_auxPin (d : Word) (s : State) : (writeCtrlFlags d s).auxPin = s.auxPin := rfl
@[simp] theorem writeCtrlFlags_busReply (d : Word) (s : State) : (writeCtrlFlags d s).busReply = s.busReply := rfl
@[simp] theorem writeCtrlFlags_freeCtr (d : Word) (s : State) : (writeCtrlFlags d s).freeCtr = s.freeCtr := rfl

/-! `requestCommit` -/

@[simp] theorem requestCommit_cfg (d : Word) (s : State) : (requestCommit d s).cfg = s.cfg := rfl
@[simp] theorem requestCommit_stage (d : Word) (s : State) : (requestCommit d s).stage = s.stage := rfl
@[simp] theorem requestCommit_active (d : Word) (s : State) : (requestCommit d s).active = s.active := rfl
@[simp] theorem requestCommit_row (d : Word) (s : State) : (requestCommit d s).row = s.row := rfl
@[simp] theorem requestCommit_blank (d : Word) (s : State) : (requestCommit d s).blank = s.blank := rfl
@[simp] theorem requestCommit_creq (d : Word) (s : State) : (requestCommit d s).creq = (s.creq || dataBit0 d) := rfl
@[simp] theorem requestCommit_dispEn (d : Word) (s : State) : (requestCommit d s).dispEn = s.dispEn := rfl
@[simp] theorem requestCommit_src (d : Word) (s : State) : (requestCommit d s).src = s.src := rfl
@[simp] theorem requestCommit_scrollIdx (d : Word) (s : State) : (requestCommit d s).scrollIdx = s.scrollIdx := rfl
@[simp] theorem requestCommit_tickPend (d : Word) (s : State) : (requestCommit d s).tickPend = s.tickPend := rfl
@[simp] theorem requestCommit_panel (d : Word) (s : State) : (requestCommit d s).panel = s.panel := rfl
@[simp] theorem requestCommit_hpRdata (d : Word) (s : State) : (requestCommit d s).hpRdata = s.hpRdata := rfl
@[simp] theorem requestCommit_host (d : Word) (s : State) : (requestCommit d s).host = s.host := rfl
@[simp] theorem requestCommit_inputs (d : Word) (s : State) : (requestCommit d s).inputs = s.inputs := rfl
@[simp] theorem requestCommit_nowMs (d : Word) (s : State) : (requestCommit d s).nowMs = s.nowMs := rfl
@[simp] theorem requestCommit_auxPin (d : Word) (s : State) : (requestCommit d s).auxPin = s.auxPin := rfl
@[simp] theorem requestCommit_busReply (d : Word) (s : State) : (requestCommit d s).busReply = s.busReply := rfl
@[simp] theorem requestCommit_freeCtr (d : Word) (s : State) : (requestCommit d s).freeCtr = s.freeCtr := rfl

/-! `presentRow` -/

@[simp] theorem presentRow_cfg (s : State) : (presentRow s).cfg = s.cfg := rfl
@[simp] theorem presentRow_stage (s : State) : (presentRow s).stage = s.stage := rfl
@[simp] theorem presentRow_active (s : State) : (presentRow s).active = s.active := rfl
@[simp] theorem presentRow_row (s : State) : (presentRow s).row = s.row := rfl
@[simp] theorem presentRow_blank (s : State) : (presentRow s).blank = s.blank := rfl
@[simp] theorem presentRow_creq (s : State) : (presentRow s).creq = s.creq := rfl
@[simp] theorem presentRow_dispEn (s : State) : (presentRow s).dispEn = s.dispEn := rfl
@[simp] theorem presentRow_src (s : State) : (presentRow s).src = s.src := rfl
@[simp] theorem presentRow_scrollIdx (s : State) : (presentRow s).scrollIdx = s.scrollIdx := rfl
@[simp] theorem presentRow_tickPend (s : State) : (presentRow s).tickPend = s.tickPend := rfl
@[simp] theorem presentRow_panel (s : State) :
    (presentRow s).panel = sendFrame s.cfg.geo (dataCode s) (selectCode s) s.panel := rfl
@[simp] theorem presentRow_hpRdata (s : State) : (presentRow s).hpRdata = s.hpRdata := rfl
@[simp] theorem presentRow_host (s : State) : (presentRow s).host = s.host := rfl
@[simp] theorem presentRow_inputs (s : State) : (presentRow s).inputs = s.inputs := rfl
@[simp] theorem presentRow_nowMs (s : State) : (presentRow s).nowMs = s.nowMs := rfl
@[simp] theorem presentRow_auxPin (s : State) : (presentRow s).auxPin = s.auxPin := rfl
@[simp] theorem presentRow_busReply (s : State) : (presentRow s).busReply = s.busReply := rfl
@[simp] theorem presentRow_freeCtr (s : State) : (presentRow s).freeCtr = s.freeCtr := rfl

/-! `advanceSequencer` -/

@[simp] theorem advanceSequencer_cfg (s : State) :
    (advanceSequencer s).cfg = s.cfg := by unfold advanceSequencer; split <;> rfl
@[simp] theorem advanceSequencer_stage (s : State) :
    (advanceSequencer s).stage = s.stage := by unfold advanceSequencer; split <;> rfl
@[simp] theorem advanceSequencer_active (s : State) :
    (advanceSequencer s).active = s.active := by unfold advanceSequencer; split <;> rfl
@[simp] theorem advanceSequencer_row (s : State) :
    (advanceSequencer s).row = if s.blank = 0 then (s.row + 1) % s.cfg.geo.h else s.row := by unfold advanceSequencer; split <;> rfl
@[simp] theorem advanceSequencer_blank (s : State) :
    (advanceSequencer s).blank = if s.blank = 0 then s.cfg.b else s.blank - 1 := by unfold advanceSequencer; split <;> rfl
@[simp] theorem advanceSequencer_creq (s : State) :
    (advanceSequencer s).creq = s.creq := by unfold advanceSequencer; split <;> rfl
@[simp] theorem advanceSequencer_dispEn (s : State) :
    (advanceSequencer s).dispEn = s.dispEn := by unfold advanceSequencer; split <;> rfl
@[simp] theorem advanceSequencer_src (s : State) :
    (advanceSequencer s).src = s.src := by unfold advanceSequencer; split <;> rfl
@[simp] theorem advanceSequencer_scrollIdx (s : State) :
    (advanceSequencer s).scrollIdx = s.scrollIdx := by unfold advanceSequencer; split <;> rfl
@[simp] theorem advanceSequencer_tickPend (s : State) :
    (advanceSequencer s).tickPend = s.tickPend := by unfold advanceSequencer; split <;> rfl
@[simp] theorem advanceSequencer_panel (s : State) :
    (advanceSequencer s).panel = s.panel := by unfold advanceSequencer; split <;> rfl
@[simp] theorem advanceSequencer_hpRdata (s : State) :
    (advanceSequencer s).hpRdata = s.hpRdata := by unfold advanceSequencer; split <;> rfl
@[simp] theorem advanceSequencer_host (s : State) :
    (advanceSequencer s).host = s.host := by unfold advanceSequencer; split <;> rfl
@[simp] theorem advanceSequencer_inputs (s : State) :
    (advanceSequencer s).inputs = s.inputs := by unfold advanceSequencer; split <;> rfl
@[simp] theorem advanceSequencer_nowMs (s : State) :
    (advanceSequencer s).nowMs = s.nowMs := by unfold advanceSequencer; split <;> rfl
@[simp] theorem advanceSequencer_auxPin (s : State) :
    (advanceSequencer s).auxPin = s.auxPin := by unfold advanceSequencer; split <;> rfl
@[simp] theorem advanceSequencer_busReply (s : State) :
    (advanceSequencer s).busReply = s.busReply := by unfold advanceSequencer; split <;> rfl
@[simp] theorem advanceSequencer_freeCtr (s : State) :
    (advanceSequencer s).freeCtr = s.freeCtr := by unfold advanceSequencer; split <;> rfl

/-! `commitAttempt` -/

@[simp] theorem commitAttempt_cfg (s : State) :
    (commitAttempt s).cfg = s.cfg := by unfold commitAttempt; split <;> rfl
@[simp] theorem commitAttempt_stage (s : State) :
    (commitAttempt s).stage = s.stage := by unfold commitAttempt; split <;> rfl
@[simp] theorem commitAttempt_active (s : State) :
    (commitAttempt s).active = if safeInstant s && s.creq then s.stage else s.active := by unfold commitAttempt; split <;> rfl
@[simp] theorem commitAttempt_row (s : State) :
    (commitAttempt s).row = s.row := by unfold commitAttempt; split <;> rfl
@[simp] theorem commitAttempt_blank (s : State) :
    (commitAttempt s).blank = s.blank := by unfold commitAttempt; split <;> rfl
@[simp] theorem commitAttempt_creq (s : State) :
    (commitAttempt s).creq = if safeInstant s && s.creq then false else s.creq := by unfold commitAttempt; split <;> rfl
@[simp] theorem commitAttempt_dispEn (s : State) :
    (commitAttempt s).dispEn = s.dispEn := by unfold commitAttempt; split <;> rfl
@[simp] theorem commitAttempt_src (s : State) :
    (commitAttempt s).src = s.src := by unfold commitAttempt; split <;> rfl
@[simp] theorem commitAttempt_scrollIdx (s : State) :
    (commitAttempt s).scrollIdx = s.scrollIdx := by unfold commitAttempt; split <;> rfl
@[simp] theorem commitAttempt_tickPend (s : State) :
    (commitAttempt s).tickPend = s.tickPend := by unfold commitAttempt; split <;> rfl
@[simp] theorem commitAttempt_panel (s : State) :
    (commitAttempt s).panel = s.panel := by unfold commitAttempt; split <;> rfl
@[simp] theorem commitAttempt_hpRdata (s : State) :
    (commitAttempt s).hpRdata = s.hpRdata := by unfold commitAttempt; split <;> rfl
@[simp] theorem commitAttempt_host (s : State) :
    (commitAttempt s).host = s.host := by unfold commitAttempt; split <;> rfl
@[simp] theorem commitAttempt_inputs (s : State) :
    (commitAttempt s).inputs = s.inputs := by unfold commitAttempt; split <;> rfl
@[simp] theorem commitAttempt_nowMs (s : State) :
    (commitAttempt s).nowMs = s.nowMs := by unfold commitAttempt; split <;> rfl
@[simp] theorem commitAttempt_auxPin (s : State) :
    (commitAttempt s).auxPin = s.auxPin := by unfold commitAttempt; split <;> rfl
@[simp] theorem commitAttempt_busReply (s : State) :
    (commitAttempt s).busReply = s.busReply := by unfold commitAttempt; split <;> rfl
@[simp] theorem commitAttempt_freeCtr (s : State) :
    (commitAttempt s).freeCtr = s.freeCtr := by unfold commitAttempt; split <;> rfl

/-! `requestTick` -/

@[simp] theorem requestTick_cfg (s : State) : (requestTick s).cfg = s.cfg := rfl
@[simp] theorem requestTick_stage (s : State) : (requestTick s).stage = s.stage := rfl
@[simp] theorem requestTick_active (s : State) : (requestTick s).active = s.active := rfl
@[simp] theorem requestTick_row (s : State) : (requestTick s).row = s.row := rfl
@[simp] theorem requestTick_blank (s : State) : (requestTick s).blank = s.blank := rfl
@[simp] theorem requestTick_creq (s : State) : (requestTick s).creq = s.creq := rfl
@[simp] theorem requestTick_dispEn (s : State) : (requestTick s).dispEn = s.dispEn := rfl
@[simp] theorem requestTick_src (s : State) : (requestTick s).src = s.src := rfl
@[simp] theorem requestTick_scrollIdx (s : State) : (requestTick s).scrollIdx = s.scrollIdx := rfl
@[simp] theorem requestTick_tickPend (s : State) : (requestTick s).tickPend = true := rfl
@[simp] theorem requestTick_panel (s : State) : (requestTick s).panel = s.panel := rfl
@[simp] theorem requestTick_hpRdata (s : State) : (requestTick s).hpRdata = s.hpRdata := rfl
@[simp] theorem requestTick_host (s : State) : (requestTick s).host = s.host := rfl
@[simp] theorem requestTick_inputs (s : State) : (requestTick s).inputs = s.inputs := rfl
@[simp] theorem requestTick_nowMs (s : State) : (requestTick s).nowMs = s.nowMs := rfl
@[simp] theorem requestTick_auxPin (s : State) : (requestTick s).auxPin = s.auxPin := rfl
@[simp] theorem requestTick_busReply (s : State) : (requestTick s).busReply = s.busReply := rfl
@[simp] theorem requestTick_freeCtr (s : State) : (requestTick s).freeCtr = s.freeCtr := rfl

/-! `enterTick` -/

@[simp] theorem enterTick_cfg (s : State) : (enterTick s).cfg = s.cfg := rfl
@[simp] theorem enterTick_stage (s : State) : (enterTick s).stage = s.stage := rfl
@[simp] theorem enterTick_active (s : State) : (enterTick s).active = s.active := rfl
@[simp] theorem enterTick_row (s : State) : (enterTick s).row = s.row := rfl
@[simp] theorem enterTick_blank (s : State) : (enterTick s).blank = s.blank := rfl
@[simp] theorem enterTick_creq (s : State) : (enterTick s).creq = s.creq := rfl
@[simp] theorem enterTick_dispEn (s : State) : (enterTick s).dispEn = s.dispEn := rfl
@[simp] theorem enterTick_src (s : State) : (enterTick s).src = s.src := rfl
@[simp] theorem enterTick_scrollIdx (s : State) : (enterTick s).scrollIdx = s.scrollIdx := rfl
@[simp] theorem enterTick_tickPend (s : State) : (enterTick s).tickPend = false := rfl
@[simp] theorem enterTick_panel (s : State) : (enterTick s).panel = s.panel := rfl
@[simp] theorem enterTick_hpRdata (s : State) : (enterTick s).hpRdata = s.hpRdata := rfl
@[simp] theorem enterTick_host (s : State) : (enterTick s).host = s.host := rfl
@[simp] theorem enterTick_inputs (s : State) : (enterTick s).inputs = s.inputs := rfl
@[simp] theorem enterTick_nowMs (s : State) : (enterTick s).nowMs = s.nowMs := rfl
@[simp] theorem enterTick_auxPin (s : State) : (enterTick s).auxPin = s.auxPin := rfl
@[simp] theorem enterTick_busReply (s : State) : (enterTick s).busReply = s.busReply := rfl
@[simp] theorem enterTick_freeCtr (s : State) : (enterTick s).freeCtr = s.freeCtr := rfl

/-! `leaveTick` -/

@[simp] theorem leaveTick_cfg (s : State) : (leaveTick s).cfg = s.cfg := rfl
@[simp] theorem leaveTick_stage (s : State) : (leaveTick s).stage = s.stage := rfl
@[simp] theorem leaveTick_active (s : State) : (leaveTick s).active = s.active := rfl
@[simp] theorem leaveTick_row (s : State) : (leaveTick s).row = s.row := rfl
@[simp] theorem leaveTick_blank (s : State) : (leaveTick s).blank = s.blank := rfl
@[simp] theorem leaveTick_creq (s : State) : (leaveTick s).creq = s.creq := rfl
@[simp] theorem leaveTick_dispEn (s : State) : (leaveTick s).dispEn = s.dispEn := rfl
@[simp] theorem leaveTick_src (s : State) : (leaveTick s).src = s.src := rfl
@[simp] theorem leaveTick_scrollIdx (s : State) : (leaveTick s).scrollIdx = s.scrollIdx := rfl
@[simp] theorem leaveTick_tickPend (s : State) : (leaveTick s).tickPend = s.tickPend := rfl
@[simp] theorem leaveTick_panel (s : State) : (leaveTick s).panel = s.panel := rfl
@[simp] theorem leaveTick_hpRdata (s : State) : (leaveTick s).hpRdata = s.hpRdata := rfl
@[simp] theorem leaveTick_host (s : State) : (leaveTick s).host = s.host := rfl
@[simp] theorem leaveTick_inputs (s : State) : (leaveTick s).inputs = s.inputs := rfl
@[simp] theorem leaveTick_nowMs (s : State) : (leaveTick s).nowMs = s.nowMs := rfl
@[simp] theorem leaveTick_auxPin (s : State) : (leaveTick s).auxPin = s.auxPin := rfl
@[simp] theorem leaveTick_busReply (s : State) : (leaveTick s).busReply = s.busReply := rfl
@[simp] theorem leaveTick_freeCtr (s : State) : (leaveTick s).freeCtr = s.freeCtr := rfl

/-! `queueOps` -/

@[simp] theorem queueOps_cfg (ops : List MainOp) (s : State) : (queueOps ops s).cfg = s.cfg := rfl
@[simp] theorem queueOps_stage (ops : List MainOp) (s : State) : (queueOps ops s).stage = s.stage := rfl
@[simp] theorem queueOps_active (ops : List MainOp) (s : State) : (queueOps ops s).active = s.active := rfl
@[simp] theorem queueOps_row (ops : List MainOp) (s : State) : (queueOps ops s).row = s.row := rfl
@[simp] theorem queueOps_blank (ops : List MainOp) (s : State) : (queueOps ops s).blank = s.blank := rfl
@[simp] theorem queueOps_creq (ops : List MainOp) (s : State) : (queueOps ops s).creq = s.creq := rfl
@[simp] theorem queueOps_dispEn (ops : List MainOp) (s : State) : (queueOps ops s).dispEn = s.dispEn := rfl
@[simp] theorem queueOps_src (ops : List MainOp) (s : State) : (queueOps ops s).src = s.src := rfl
@[simp] theorem queueOps_scrollIdx (ops : List MainOp) (s : State) : (queueOps ops s).scrollIdx = s.scrollIdx := rfl
@[simp] theorem queueOps_tickPend (ops : List MainOp) (s : State) : (queueOps ops s).tickPend = s.tickPend := rfl
@[simp] theorem queueOps_panel (ops : List MainOp) (s : State) : (queueOps ops s).panel = s.panel := rfl
@[simp] theorem queueOps_hpRdata (ops : List MainOp) (s : State) : (queueOps ops s).hpRdata = s.hpRdata := rfl
@[simp] theorem queueOps_host (ops : List MainOp) (s : State) :
    (queueOps ops s).host = { s.host with pending := s.host.pending ++ ops } := rfl
@[simp] theorem queueOps_inputs (ops : List MainOp) (s : State) : (queueOps ops s).inputs = s.inputs := rfl
@[simp] theorem queueOps_nowMs (ops : List MainOp) (s : State) : (queueOps ops s).nowMs = s.nowMs := rfl
@[simp] theorem queueOps_auxPin (ops : List MainOp) (s : State) : (queueOps ops s).auxPin = s.auxPin := rfl
@[simp] theorem queueOps_busReply (ops : List MainOp) (s : State) : (queueOps ops s).busReply = s.busReply := rfl
@[simp] theorem queueOps_freeCtr (ops : List MainOp) (s : State) : (queueOps ops s).freeCtr = s.freeCtr := rfl

/-! `takeInput` -/

@[simp] theorem takeInput_cfg (s : State) : (takeInput s).cfg = s.cfg := rfl
@[simp] theorem takeInput_stage (s : State) : (takeInput s).stage = s.stage := rfl
@[simp] theorem takeInput_active (s : State) : (takeInput s).active = s.active := rfl
@[simp] theorem takeInput_row (s : State) : (takeInput s).row = s.row := rfl
@[simp] theorem takeInput_blank (s : State) : (takeInput s).blank = s.blank := rfl
@[simp] theorem takeInput_creq (s : State) : (takeInput s).creq = s.creq := rfl
@[simp] theorem takeInput_dispEn (s : State) : (takeInput s).dispEn = s.dispEn := rfl
@[simp] theorem takeInput_src (s : State) : (takeInput s).src = s.src := rfl
@[simp] theorem takeInput_scrollIdx (s : State) : (takeInput s).scrollIdx = s.scrollIdx := rfl
@[simp] theorem takeInput_tickPend (s : State) : (takeInput s).tickPend = s.tickPend := rfl
@[simp] theorem takeInput_panel (s : State) : (takeInput s).panel = s.panel := rfl
@[simp] theorem takeInput_hpRdata (s : State) : (takeInput s).hpRdata = s.hpRdata := rfl
@[simp] theorem takeInput_host (s : State) : (takeInput s).host = s.host := rfl
@[simp] theorem takeInput_inputs (s : State) : (takeInput s).inputs = s.inputs.tail := rfl
@[simp] theorem takeInput_nowMs (s : State) : (takeInput s).nowMs = s.nowMs := rfl
@[simp] theorem takeInput_auxPin (s : State) : (takeInput s).auxPin = s.auxPin := rfl
@[simp] theorem takeInput_busReply (s : State) : (takeInput s).busReply = s.busReply := rfl
@[simp] theorem takeInput_freeCtr (s : State) : (takeInput s).freeCtr = s.freeCtr := rfl

/-! `answerBusRead` -/

@[simp] theorem answerBusRead_cfg (s : State) : (answerBusRead s).cfg = s.cfg := rfl
@[simp] theorem answerBusRead_stage (s : State) : (answerBusRead s).stage = s.stage := rfl
@[simp] theorem answerBusRead_active (s : State) : (answerBusRead s).active = s.active := rfl
@[simp] theorem answerBusRead_row (s : State) : (answerBusRead s).row = s.row := rfl
@[simp] theorem answerBusRead_blank (s : State) : (answerBusRead s).blank = s.blank := rfl
@[simp] theorem answerBusRead_creq (s : State) : (answerBusRead s).creq = s.creq := rfl
@[simp] theorem answerBusRead_dispEn (s : State) : (answerBusRead s).dispEn = s.dispEn := rfl
@[simp] theorem answerBusRead_src (s : State) : (answerBusRead s).src = s.src := rfl
@[simp] theorem answerBusRead_scrollIdx (s : State) : (answerBusRead s).scrollIdx = s.scrollIdx := rfl
@[simp] theorem answerBusRead_tickPend (s : State) : (answerBusRead s).tickPend = s.tickPend := rfl
@[simp] theorem answerBusRead_panel (s : State) : (answerBusRead s).panel = s.panel := rfl
@[simp] theorem answerBusRead_hpRdata (s : State) : (answerBusRead s).hpRdata = s.hpRdata := rfl
@[simp] theorem answerBusRead_host (s : State) : (answerBusRead s).host = s.host := rfl
@[simp] theorem answerBusRead_inputs (s : State) : (answerBusRead s).inputs = s.inputs := rfl
@[simp] theorem answerBusRead_nowMs (s : State) : (answerBusRead s).nowMs = s.nowMs := rfl
@[simp] theorem answerBusRead_auxPin (s : State) : (answerBusRead s).auxPin = s.auxPin := rfl
@[simp] theorem answerBusRead_busReply (s : State) : (answerBusRead s).busReply = statusByte s.auxPin := rfl
@[simp] theorem answerBusRead_freeCtr (s : State) : (answerBusRead s).freeCtr = s.freeCtr := rfl

/-! `State.withTiming` -/

@[simp] theorem withTiming_stage (n p : Nat) (s : State) : (s.withTiming n p).stage = s.stage := rfl
@[simp] theorem withTiming_active (n p : Nat) (s : State) : (s.withTiming n p).active = s.active := rfl
@[simp] theorem withTiming_row (n p : Nat) (s : State) : (s.withTiming n p).row = s.row := rfl
@[simp] theorem withTiming_blank (n p : Nat) (s : State) : (s.withTiming n p).blank = s.blank := rfl
@[simp] theorem withTiming_creq (n p : Nat) (s : State) : (s.withTiming n p).creq = s.creq := rfl
@[simp] theorem withTiming_dispEn (n p : Nat) (s : State) : (s.withTiming n p).dispEn = s.dispEn := rfl
@[simp] theorem withTiming_src (n p : Nat) (s : State) : (s.withTiming n p).src = s.src := rfl
@[simp] theorem withTiming_scrollIdx (n p : Nat) (s : State) : (s.withTiming n p).scrollIdx = s.scrollIdx := rfl
@[simp] theorem withTiming_tickPend (n p : Nat) (s : State) : (s.withTiming n p).tickPend = s.tickPend := rfl
@[simp] theorem withTiming_panel (n p : Nat) (s : State) : (s.withTiming n p).panel = s.panel := rfl
@[simp] theorem withTiming_hpRdata (n p : Nat) (s : State) : (s.withTiming n p).hpRdata = s.hpRdata := rfl
@[simp] theorem withTiming_host (n p : Nat) (s : State) : (s.withTiming n p).host = s.host := rfl
@[simp] theorem withTiming_inputs (n p : Nat) (s : State) : (s.withTiming n p).inputs = s.inputs := rfl
@[simp] theorem withTiming_nowMs (n p : Nat) (s : State) : (s.withTiming n p).nowMs = s.nowMs := rfl
@[simp] theorem withTiming_auxPin (n p : Nat) (s : State) : (s.withTiming n p).auxPin = s.auxPin := rfl
@[simp] theorem withTiming_busReply (n p : Nat) (s : State) : (s.withTiming n p).busReply = s.busReply := rfl
@[simp] theorem withTiming_freeCtr (n p : Nat) (s : State) : (s.withTiming n p).freeCtr = s.freeCtr := rfl
@[simp] theorem withTiming_cfg_geo (n p : Nat) (s : State) : (s.withTiming n p).cfg.geo = s.cfg.geo := rfl
@[simp] theorem withTiming_cfg_b (n p : Nat) (s : State) : (s.withTiming n p).cfg.b = s.cfg.b := rfl
@[simp] theorem withTiming_cfg_sw (n p : Nat) (s : State) : (s.withTiming n p).cfg.sw = s.cfg.sw := rfl
@[simp] theorem withTiming_cfg_pattern (n p : Nat) (s : State) : (s.withTiming n p).cfg.pattern = s.cfg.pattern := rfl
@[simp] theorem withTiming_cfg_scrollInit (n p : Nat) (s : State) :
    (s.withTiming n p).cfg.scrollInit = s.cfg.scrollInit := rfl
@[simp] theorem withTiming_cfg_resetDispEn (n p : Nat) (s : State) :
    (s.withTiming n p).cfg.resetDispEn = s.cfg.resetDispEn := rfl
@[simp] theorem withTiming_cfg_hasDirectAnim (n p : Nat) (s : State) :
    (s.withTiming n p).cfg.hasDirectAnim = s.cfg.hasDirectAnim := rfl
@[simp] theorem withTiming_cfg_host (n p : Nat) (s : State) : (s.withTiming n p).cfg.host = s.cfg.host := rfl
@[simp] theorem withTiming_cfg_syncStages (n p : Nat) (s : State) : (s.withTiming n p).cfg.syncStages = n := rfl
@[simp] theorem withTiming_cfg_tickPeriod (n p : Nat) (s : State) : (s.withTiming n p).cfg.tickPeriod = p := rfl

end Sys2Proof.Machine
end

