-- ==== Sys2Proof/Laws/Bits.lean ====
section
/-! SUPPORT. What the bit-field helpers and the panel-side operations do, bit by bit; later proofs cite these. -/

namespace Sys2Proof.Machine

theorem w_le_16 (g : Geometry) : g.w ≤ 16 := by cases g <;> decide

theorem w_pos (g : Geometry) : 0 < g.w := by cases g <;> decide

/-- Bit `i` of `ones(N)`. -/
theorem ones_getLsbD {n : Nat} (hn : n ≤ 16) (i : Nat) : (ones n).getLsbD i = decide (i < n) := by
  simp only [ones, BitVec.getLsbD_ofNat, Nat.testBit_two_pow_sub_one]
  by_cases h : i < n
  · simp [h]; omega
  · simp [h]

/-- Bit `i` of the complement within `N` bits. -/
theorem compl_getLsbD {n : Nat} (hn : n ≤ 16) (v : Word) (i : Nat) :
    (compl n v).getLsbD i = (decide (i < n) && !v.getLsbD i) := by
  simp only [compl, BitVec.getLsbD_and, BitVec.getLsbD_not, ones_getLsbD hn]
  by_cases h : i < n
  · have h16 : i < 16 := by omega
    simp [h, h16]
  · simp [h]

/-- Bit `i` of a row word written from a data word. -/
theorem rowData_getLsbD (g : Geometry) (d : Word) (i : Nat) :
    (rowData g d).getLsbD i = (decide (i < g.w) && d.getLsbD i) := by
  simp only [rowData, BitVec.getLsbD_and, ones_getLsbD (w_le_16 g)]
  rw [Bool.and_comm]

/-- A word whose bits from `n` up are 0 is below `2^n`. -/
theorem toNat_lt_of_getLsbD {m n : Nat} (v : BitVec m) (h : ∀ i, n ≤ i → v.getLsbD i = false) :
    v.toNat < 2 ^ n := by
  apply Nat.lt_pow_two_of_testBit
  intro i hi
  have := h i hi
  simpa [BitVec.getLsbD] using this

/-- A word below `2^n` has no bit from `n` up. -/
theorem getLsbD_of_toNat_lt {m n : Nat} (v : BitVec m) (h : v.toNat < 2 ^ n) {i : Nat} (hi : n ≤ i) :
    v.getLsbD i = false := by
  have : v.toNat < 2 ^ i := Nat.lt_of_lt_of_le h (Nat.pow_le_pow_right (by decide) hi)
  simpa [BitVec.getLsbD] using Nat.testBit_lt_two_pow this

/-- A row word written has `W` bits. -/
theorem rowData_lt (g : Geometry) (d : Word) : (rowData g d).toNat < 2 ^ g.w :=
  toNat_lt_of_getLsbD _ fun i hi => by
    rw [rowData_getLsbD]; simp; omega

/-- The complement within `N` bits has `N` bits. -/
theorem compl_lt {n : Nat} (hn : n ≤ 16) (v : Word) : (compl n v).toNat < 2 ^ n :=
  toNat_lt_of_getLsbD _ fun i hi => by
    rw [compl_getLsbD hn]; simp; omega

theorem ones_lt {n : Nat} (hn : n ≤ 16) : (ones n).toNat < 2 ^ n :=
  toNat_lt_of_getLsbD _ fun i hi => by
    rw [ones_getLsbD hn]; simp; omega

/-- Bit `i` of `ones(2W)`. -/
theorem chainOnes_getLsbD (g : Geometry) (i : Nat) : (chainOnes g).getLsbD i = decide (i < 2 * g.w) := by
  have := w_le_16 g
  simp only [chainOnes, BitVec.getLsbD_ofNat, Nat.testBit_two_pow_sub_one]
  by_cases h : i < 2 * g.w
  · simp [h]; omega
  · simp [h]

/-- Whatever is masked to the chain has `2W` bits. -/
theorem and_chainOnes_lt (g : Geometry) (c : Chain) : (c &&& chainOnes g).toNat < 2 ^ (2 * g.w) :=
  toNat_lt_of_getLsbD _ fun i hi => by
    rw [BitVec.getLsbD_and, chainOnes_getLsbD]; simp; omega

/-! The serial transfer. -/

/-- One bit sent: it enters the chain at bit 0, everything else moves up by one. -/
theorem shiftBit_sr_getLsbD (g : Geometry) (b : Bool) (p : Panel) (i : Nat) :
    (shiftBit g b p).sr.getLsbD i =
      (decide (i < 2 * g.w) && (if i = 0 then b else p.sr.getLsbD (i - 1))) := by
  have := w_le_16 g
  simp only [shiftBit, clockRise, BitVec.getLsbD_and, chainOnes_getLsbD, BitVec.getLsbD_or,
    BitVec.getLsbD_shiftLeft, BitVec.getLsbD_setWidth]
  by_cases h : i < 2 * g.w
  · have h32 : i < 32 := by omega
    rcases Nat.eq_zero_or_pos i with h0 | h0
    · subst h0; simp [h]
    · have h1 : ¬ i < 1 := by omega
      have h2 : i ≠ 0 := by omega
      have h3 : (BitVec.ofBool b).getLsbD i = false := BitVec.getLsbD_of_ge _ _ (by omega)
      simp [h, h32, h1, h2, h3]
  · simp [h]

/-- `shift_out(v, n)`: the low `n` bits of the chain are those of `v`, the rest have moved up by `n`. -/
theorem shiftOut_sr_getLsbD (g : Geometry) (v : Word) (n : Nat) (p : Panel) {i : Nat} (hi : i < 2 * g.w) :
    (shiftOut g v n p).sr.getLsbD i = if i < n then v.getLsbD i else p.sr.getLsbD (i - n) := by
  induction n generalizing p with
  | zero => simp [shiftOut]
  | succ n ih =>
    simp only [shiftOut]
    rw [ih]
    by_cases h : i < n
    · have h' : i < n + 1 := by omega
      simp [h, h']
    · rw [if_neg h, shiftBit_sr_getLsbD]
      by_cases h' : i = n
      · subst h'; simp; omega
      · have h1 : ¬ i < n + 1 := by omega
        have h2 : i - n ≠ 0 := by omega
        have h3 : i - n < 2 * g.w := by omega
        have h4 : i - n - 1 = i - (n + 1) := by omega
        simp [h1, h2, h3, h4]

/-- After at least one bit the chain holds `2W` bits. -/
theorem shiftOut_sr_lt (g : Geometry) (v : Word) (n : Nat) (p : Panel)
    (h : p.sr.toNat < 2 ^ (2 * g.w) ∨ 0 < n) : (shiftOut g v n p).sr.toNat < 2 ^ (2 * g.w) := by
  induction n generalizing p with
  | zero => simpa [shiftOut] using h
  | succ n ih =>
    simp only [shiftOut]
    exact ih _ (.inl (and_chainOnes_lt g _))

@[simp] theorem shiftOut_q (g : Geometry) (v : Word) (n : Nat) (p : Panel) : (shiftOut g v n p).q = p.q := by
  induction n generalizing p with
  | zero => rfl
  | succ n ih => simp only [shiftOut]; rw [ih]; rfl

@[simp] theorem shiftOut_latch (g : Geometry) (v : Word) (n : Nat) (p : Panel) :
    (shiftOut g v n p).latch = p.latch := by
  induction n generalizing p with
  | zero => rfl
  | succ n ih => simp only [shiftOut]; rw [ih]; rfl

/-- `SCLK` is left low after a bit. -/
theorem shiftOut_sclk (g : Geometry) (v : Word) (n : Nat) (p : Panel) :
    (shiftOut g v n p).sclk = if n = 0 then p.sclk else false := by
  induction n generalizing p with
  | zero => rfl
  | succ n ih =>
    simp only [shiftOut]; rw [ih]
    by_cases h : n = 0 <;> simp [h, shiftBit]

/-- `SER` keeps the last bit sent: bit 0. -/
theorem shiftOut_ser (g : Geometry) (v : Word) (n : Nat) (p : Panel) :
    (shiftOut g v n p).ser = if n = 0 then p.ser else v.getLsbD 0 := by
  induction n generalizing p with
  | zero => rfl
  | succ n ih =>
    simp only [shiftOut]; rw [ih]
    by_cases h : n = 0
    · subst h; simp [shiftBit, clockRise]
    · simp [h]

/-- Bit `i` of `{D, S}` for a `W`-bit `S`. -/
theorem chainOf_getLsbD (g : Geometry) (d s : Word) (hs : s.toNat < 2 ^ g.w) (i : Nat) :
    (chainOf g d s).getLsbD i =
      (decide (i < 32) && if i < g.w then s.getLsbD i else d.getLsbD (i - g.w)) := by
  have hw := w_le_16 g
  simp only [chainOf, BitVec.getLsbD_or, BitVec.getLsbD_shiftLeft, BitVec.getLsbD_setWidth]
  by_cases h32 : i < 32
  · by_cases h : i < g.w
    · simp [h, h32]
    · have hs' : s.getLsbD i = false := getLsbD_of_toNat_lt s hs (by omega)
      have h2 : i - g.w < 32 := by omega
      simp [h, h32, h2, hs']
  · have hs' : s.getLsbD i = false := getLsbD_of_toNat_lt s hs (by omega)
    simp [h32]

/-- Step 2 of a tick, whole: whatever the chain held, it now holds `{D, S}`, latched; the lines are at their levels
between ticks, and `SER` keeps the last bit sent. -/
theorem sendFrame_eq (g : Geometry) (d s : Word) (hd : d.toNat < 2 ^ g.w) (hs : s.toNat < 2 ^ g.w) (p : Panel) :
    sendFrame g d s p =
      { sr := chainOf g d s, q := chainOf g d s, ser := s.getLsbD 0, sclk := false, latch := true } := by
  have hw := w_le_16 g
  have hp := w_pos g
  have hsr : (shiftOut g s g.w (shiftOut g d g.w p)).sr = chainOf g d s := by
    apply BitVec.eq_of_getLsbD_eq
    intro i _
    by_cases hi : i < 2 * g.w
    · rw [shiftOut_sr_getLsbD g s g.w _ hi, chainOf_getLsbD g d s hs]
      have h32 : i < 32 := by omega
      by_cases h : i < g.w
      · simp [h, h32]
      · have h1 : i - g.w < 2 * g.w := by omega
        have h2 : i - g.w < g.w := by omega
        simp only [if_neg h, h32, decide_true, Bool.true_and]
        rw [shiftOut_sr_getLsbD g d g.w p h1, if_pos h2]
    · have h1 := shiftOut_sr_lt g s g.w (shiftOut g d g.w p) (.inr hp)
      rw [getLsbD_of_toNat_lt _ h1 (by omega), chainOf_getLsbD g d s hs]
      have h2 : ¬ i < g.w := by omega
      have h3 : d.getLsbD (i - g.w) = false := getLsbD_of_toNat_lt d hd (by omega)
      simp [h2, h3]
  have hne : g.w ≠ 0 := by omega
  simp only [sendFrame, latchPulse, hsr, shiftOut_ser, shiftOut_sclk, hne, if_false]

/-- `Q_DATA` of a latched frame. -/
theorem qData_chainOf (g : Geometry) (d s : Word) (hd : d.toNat < 2 ^ g.w) (hs : s.toNat < 2 ^ g.w) (p : Panel)
    (hq : p.q = chainOf g d s) : p.qData g = d := by
  have hw := w_le_16 g
  apply BitVec.eq_of_getLsbD_eq
  intro i hi
  simp only [Panel.qData, hq, BitVec.getLsbD_and, ones_getLsbD hw, BitVec.getLsbD_setWidth,
    BitVec.getLsbD_ushiftRight, chainOf_getLsbD g d s hs]
  by_cases h : i < g.w
  · have h1 : g.w + i < 32 := by omega
    have h2 : ¬ g.w + i < g.w := by omega
    simp [h, h1, hi]
  · simp [h, getLsbD_of_toNat_lt d hd (Nat.le_of_not_lt h)]

/-- `Q_SEL` of a latched frame. -/
theorem qSel_chainOf (g : Geometry) (d s : Word) (hs : s.toNat < 2 ^ g.w) (p : Panel)
    (hq : p.q = chainOf g d s) : p.qSel g = s := by
  have hw := w_le_16 g
  apply BitVec.eq_of_getLsbD_eq
  intro i hi
  simp only [Panel.qSel, hq, BitVec.getLsbD_and, ones_getLsbD hw, BitVec.getLsbD_setWidth,
    chainOf_getLsbD g d s hs]
  by_cases h : i < g.w
  · have h1 : i < 32 := by omega
    simp [h, h1, hi]
  · simp [h, getLsbD_of_toNat_lt s hs (Nat.le_of_not_lt h)]

/-- The codes of a tick have `W` bits. -/
theorem dataCode_lt (s : State) : (dataCode s).toNat < 2 ^ s.cfg.geo.w := by
  unfold dataCode; split
  · exact ones_lt (w_le_16 _)
  · exact compl_lt (w_le_16 _) _

theorem selectCode_lt (s : State) : (selectCode s).toNat < 2 ^ s.cfg.geo.w := by
  unfold selectCode; split
  · exact ones_lt (w_le_16 _)
  · exact compl_lt (w_le_16 _) _

/-- Steps 1 and 2 of a tick, whole. -/
theorem presentRow_eq (s : State) :
    presentRow s =
      { s with panel := { sr := chainOf s.cfg.geo (dataCode s) (selectCode s)
                          q := chainOf s.cfg.geo (dataCode s) (selectCode s)
                          ser := (selectCode s).getLsbD 0
                          sclk := false
                          latch := true } } := by
  rw [presentRow, sendFrame_eq _ _ _ (dataCode_lt s) (selectCode_lt s)]

end Sys2Proof.Machine
end

