-- ==== Sys2Proof/Laws/Decode.lean ====
section
/-! SUPPORT. The fields of a transaction word, and what the decoder makes of one. -/

namespace Sys2Proof

@[simp] theorem rw_mkTrans (b : Bool) (a : Addr) (d : Word) : (mkTrans b a d).rw = b := by
  simp only [Trans.rw, mkTrans]
  rw [BitVec.getLsbD_append, BitVec.getLsbD_append]
  cases b <;> simp

@[simp] theorem addr_mkTrans (b : Bool) (a : Addr) (d : Word) : (mkTrans b a d).addr = a := by
  apply BitVec.eq_of_getLsbD_eq
  intro i hi
  simp only [Trans.addr, mkTrans, BitVec.getLsbD_extractLsb', BitVec.getLsbD_append]
  have : 16 + i - 16 = i := by omega
  simp [hi, this]

@[simp] theorem data_mkTrans (b : Bool) (a : Addr) (d : Word) : (mkTrans b a d).data = d := by
  apply BitVec.eq_of_getLsbD_eq
  intro i hi
  simp only [Trans.data, mkTrans, BitVec.getLsbD_extractLsb', BitVec.getLsbD_append]
  simp [hi]

/-- Every word is made of its three fields (30_encoding R91). -/
theorem mkTrans_fields (t : Trans) : mkTrans t.rw t.addr t.data = t := by
  apply BitVec.eq_of_getLsbD_eq
  intro i hi
  simp only [Trans.rw, Trans.data, Trans.addr, mkTrans, BitVec.getLsbD_extractLsb', BitVec.getLsbD_append]
  by_cases h : i < 16
  · simp [h]
  · by_cases h2 : i - 16 < 8
    · have : 16 + (i - 16) = i := by omega
      simp [h, h2, this]
    · have : i = 24 := by omega
      subst this
      cases t.getLsbD 24 <;> simp

@[simp] theorem decodeWord_write (g : Geometry) (a : Addr) (d : Word) :
    decodeWord g (mkTrans true a d) = decodeWrite g a d := by
  simp [decodeWord]

@[simp] theorem decodeWord_read (g : Geometry) (a : Addr) (d : Word) :
    decodeWord g (mkTrans false a d) = decodeRead g a := by
  simp [decodeWord]

end Sys2Proof
end

