-- ==== Sys2Proof/Laws/Machine.lean ====
section
/-! SUPPORT. What each instruction answers, what a tick does as a whole, and which case of a step applies when; later
proofs cite these instead of unfolding the machine. -/

namespace Sys2Proof.Machine

/-! Each instruction's answer. -/

@[simp] theorem exec_wrCtrl (d : Word) (s : State) : exec (.wrCtrl d) s = .next (writeCtrlFlags d s) := rfl
@[simp] theorem exec_rdCtrl (s : State) : exec .rdCtrl s = .next (setRdata (ctrlWord s) s) := rfl
@[simp] theorem exec_wrCommit (d : Word) (s : State) : exec (.wrCommit d) s = .next (requestCommit d s) := rfl
@[simp] theorem exec_rdCommit (s : State) : exec .rdCommit s = .next (setRdata (commitWord s) s) := rfl
@[simp] theorem exec_wrScroll (d : Word) (s : State) : exec (.wrScroll d) s = .next (advanceIndex s) := rfl
@[simp] theorem exec_rdScroll (s : State) : exec .rdScroll s = .next (setRdata (scrollWord s) s) := rfl
@[simp] theorem exec_wrStage (r : RowIx) (d : Word) (s : State) :
    exec (.wrStage r d) s = .next (setStageRow r.toNat d s) := rfl
@[simp] theorem exec_rdStage (r : RowIx) (s : State) :
    exec (.rdStage r) s = .next (setRdata (stageRow s r.toNat) s) := rfl
@[simp] theorem exec_rdVrow (r : RowIx) (s : State) :
    exec (.rdVrow r) s = .next (setRdata (visibleRow s r.toNat) s) := rfl
@[simp] theorem exec_wrIgnored (a : Addr) (d : Word) (s : State) : exec (.wrIgnored a d) s = .next s := rfl
@[simp] theorem exec_rdZero (a : Addr) (s : State) : exec (.rdZero a) s = .next (setRdata 0#16 s) := rfl
@[simp] theorem exec_tick (s : State) : exec .tick s = .next (tickBody (enterTick s)) := rfl
@[simp] theorem exec_reset (s : State) : exec .reset s = .next (resetState s) := rfl
@[simp] theorem exec_setDisplay_some (b : Byte) (s : State) :
    exec (.setDisplay (some b)) s = .next (queueOps (setDisplayOps (boolPayload b)) s) := rfl
@[simp] theorem exec_setDisplay_none (s : State) : exec (.setDisplay none) s = .next s := rfl
@[simp] theorem exec_setMessage (text : List Byte) (s : State) :
    exec (.setMessage text) s = .next (replaceMessage text s) := rfl
@[simp] theorem exec_setScrollSpeed_some (v : Byte) (s : State) :
    exec (.setScrollSpeed (some v)) s = .next { s with host.intervalMs := speedInterval s.cfg v } := rfl
@[simp] theorem exec_setScrollSpeed_none (s : State) : exec (.setScrollSpeed none) s = .next s := rfl
@[simp] theorem exec_setDisplayMode_none (s : State) : exec (.setDisplayMode none) s = .next s := rfl
@[simp] theorem exec_setDisplayMode_some (m : Byte) (s : State) :
    exec (.setDisplayMode (some m)) s =
      match modeOfId m with | some k => .next (selectMode k s) | none => .next s := rfl
@[simp] theorem exec_showTempMessage (text : List Byte) (s : State) :
    exec (.showTempMessage text) s = .next (triggerOverlay text s) := rfl
@[simp] theorem exec_unknownCommand (op : Byte) (p : List Byte) (s : State) :
    exec (.unknownCommand op p) s = .next s := rfl

/-- Every operation is total (60_exceptions R260). -/
theorem exec_answers (i : Instr) (s : State) : ∃ t, exec i s = .next t := by
  cases i with
  | setDisplay b => cases b <;> exact ⟨_, rfl⟩
  | setScrollSpeed b => cases b <;> exact ⟨_, rfl⟩
  | setDisplayMode b =>
    cases b with
    | none => exact ⟨_, rfl⟩
    | some m => simp only [exec_setDisplayMode_some]; split <;> exact ⟨_, rfl⟩
  | _ => exact ⟨_, rfl⟩

/-! The tick as a whole. -/

/-- Does the tick of this state copy? The test of step 4, on the position before the tick. -/
def copies (s : State) : Bool := safeInstant (advanceSequencer s) && s.creq

/-- Every field a tick writes, and no other (41 R140, R154). -/
theorem tickBody_eq (s : State) :
    tickBody s =
      { s with
        active := if copies s then s.stage else s.active
        creq := if copies s then false else s.creq
        row := (advanceSequencer s).row
        blank := (advanceSequencer s).blank
        panel := (presentRow s).panel } := by
  unfold tickBody copies commitAttempt
  have h1 : safeInstant (advanceSequencer (presentRow s)) = safeInstant (advanceSequencer s) := by
    unfold safeInstant advanceSequencer; by_cases h : s.blank = 0 <;> simp [h]
  rw [h1, advanceSequencer_creq, presentRow_creq]
  have h2 : advanceSequencer (presentRow s) =
      { s with
        row := (advanceSequencer s).row
        blank := (advanceSequencer s).blank
        panel := (presentRow s).panel } := by
    unfold advanceSequencer; by_cases h : s.blank = 0 <;> simp [h, presentRow]
  by_cases h : (safeInstant (advanceSequencer s) && s.creq) = true
  · simp only [if_pos h, h2]
  · simp only [if_neg h, h2]

/-- Tick entry changes only `TICK_PEND`, so it does not show in the codes, the position or the copy. -/
@[simp] theorem dataCode_enterTick (s : State) : dataCode (enterTick s) = dataCode s := rfl
@[simp] theorem selectCode_enterTick (s : State) : selectCode (enterTick s) = selectCode s := rfl
@[simp] theorem copies_enterTick (s : State) : copies (enterTick s) = copies s := by
  unfold copies advanceSequencer safeInstant
  by_cases h : s.blank = 0 <;> simp [enterTick, h]
@[simp] theorem dataCode_requestTick (s : State) : dataCode (requestTick s) = dataCode s := rfl
@[simp] theorem selectCode_requestTick (s : State) : selectCode (requestTick s) = selectCode s := rfl
@[simp] theorem enterTick_requestTick (s : State) : enterTick (requestTick s) = enterTick s := rfl

/-- The next position of the sequencer (R148). -/
theorem advanceSequencer_eq (s : State) :
    advanceSequencer s =
      { s with
        row := if s.blank = 0 then (s.row + 1) % s.cfg.geo.h else s.row
        blank := if s.blank = 0 then s.cfg.b else s.blank - 1 } := by
  unfold advanceSequencer
  by_cases h : s.blank = 0 <;> simp [h]

/-! Surfaces keep their form. -/

/-- A surface of a geometry: `H` rows of `W` bits (10_state R21, R22). -/
def SurfaceForm (g : Geometry) (l : List Word) : Prop := l.length = g.h ∧ ∀ v ∈ l, v.toNat < 2 ^ g.w

/-- Writing a row keeps the form (and a row number outside the surface writes nothing). -/
theorem setStageRow_form (r : Nat) (d : Word) (s : State) (h : SurfaceForm s.cfg.geo s.stage) :
    SurfaceForm s.cfg.geo (setStageRow r d s).stage := by
  refine ⟨by simpa using h.1, fun v hv => ?_⟩
  rcases List.mem_or_eq_of_mem_set (by simpa using hv) with h' | h'
  · exact h.2 v h'
  · exact h' ▸ rowData_lt _ _

/-- The commit attempt keeps the form of both surfaces. -/
theorem commitAttempt_form (s : State) (hs : SurfaceForm s.cfg.geo s.stage) (ha : SurfaceForm s.cfg.geo s.active) :
    SurfaceForm s.cfg.geo (commitAttempt s).active := by
  simp only [commitAttempt_active]; split
  · exact hs
  · exact ha

/-- Reset leaves both surfaces in form. -/
theorem powerOn_form (c : Config) : SurfaceForm c.geo (powerOn c).stage := by
  refine ⟨by simp [powerOn], fun v hv => ?_⟩
  have : v = 0 := (List.mem_replicate.mp hv).2
  subst this; cases c.geo <;> decide

/-- Power-on of the default configuration is `State.reset`. -/
theorem powerOn_default : powerOn Config.default = State.reset := by decide

/-! Which case of a step applies. -/

theorem step_illegal {s : State} (h : legalConfig s.cfg = false) : step s = .refused .illegalConfig := by
  simp [step, stepOnce, h]

theorem step_legal {s : State} (h : legalConfig s.cfg = true) : step s = arbitrate s := by
  simp [step, stepOnce, h]

theorem step_rst {s : State} {rest : List Input} (h : legalConfig s.cfg = true) (hi : s.inputs = .op .rst :: rest) :
    step s = exec .reset (takeInput s) := by
  rw [step_legal h]; simp [arbitrate, hi, acceptInput, runForm, decode]

theorem step_pending_tick {s : State} (h : legalConfig s.cfg = true) (hp : s.tickPend = true)
    (hi : s.inputs.head? ≠ some (.op .rst)) : step s = exec .tick s := by
  rw [step_legal h]
  unfold arbitrate
  split <;> simp_all

theorem step_no_input {s : State} (h : legalConfig s.cfg = true) (hp : s.tickPend = false) (hi : s.inputs = []) :
    step s = mainStep s := by
  rw [step_legal h]; simp [arbitrate, hi, hp]

theorem step_input {s : State} {e : Input} {rest : List Input} (h : legalConfig s.cfg = true)
    (hp : s.tickPend = false) (hi : s.inputs = e :: rest) : step s = acceptInput e s := by
  rw [step_legal h]
  unfold arbitrate
  split <;> simp_all

/-- MainFlow's step is total. -/
theorem mainStep_answers (s : State) : ∃ t, mainStep s = .next t := by
  unfold mainStep
  split
  · exact ⟨_, rfl⟩
  · dsimp only
    split
    · exact exec_answers _ _
    · exact ⟨_, rfl⟩

/-- An operation that arrives is total. -/
theorem runForm_answers (f : Form) (s : State) : ∃ t, runForm f s = .next t := by
  unfold runForm
  split
  · exact exec_answers _ _
  · exact ⟨_, rfl⟩

end Sys2Proof.Machine
end

