-- ==== Sys2Proof/Laws/PerInstr.lean ====
section
/-! SUPPORT. Statements about every instruction as syntax, one lemma for each constructor. -/

namespace Sys2Proof.Laws.EncodeForm

/-- A word meets the pattern of the table's row of that name (30_encoding R102). -/
def meets (g : Geometry) (mnemonic : String) (t : Trans) : Prop :=
  ∃ row ∈ opcodeTable, row.mnemonic = mnemonic ∧ t &&& row.maskFor g = row.pattern

/-- The opcode byte of a command (30_encoding R96). -/
def opcodeIs (mnemonic : String) (op : Byte) : Prop :=
  match op.toNat with
  | 0 => mnemonic = "setDisplay"
  | 1 => mnemonic = "setMessage"
  | 2 => mnemonic = "setScrollSpeed"
  | 3 => mnemonic = "setDisplayMode"
  | 4 => mnemonic = "showTempMessage"
  | _ => mnemonic = "unknownCommand"

/-- The canonical encoding of an instruction is of the form the opcode table gives its row (30_encoding R90, R96, R102):
a word that meets the row's pattern under the row's mask, the row's opcode byte first, or the row's pin. -/
def Statement (i : Instr) : Prop :=
  ∀ g : Geometry, i.wellFormed g = true →
    match encode i with
    | .word t => meets g i.mnemonic t
    | .bus bytes => ∃ op rest, bytes = op :: rest ∧ opcodeIs i.mnemonic op
    | .tickReq => i.mnemonic = "TICK"
    | .rst => i.mnemonic = "RESET"

/-- A mask that leaves `DATA` out does not see it. -/
theorem mask_data (b : Bool) (a : Addr) (d : Word) (m : Trans) (hm : m.extractLsb' 0 16 = 0#16) :
    mkTrans b a d &&& m = mkTrans b a 0#16 &&& m := by
  apply BitVec.eq_of_getLsbD_eq
  intro i hi
  simp only [BitVec.getLsbD_and, mkTrans, BitVec.getLsbD_append]
  by_cases h : i < 16
  · have := congrArg (BitVec.getLsbD · i) hm
    simp only [BitVec.getLsbD_extractLsb', Nat.zero_add, BitVec.getLsbD_zero, h, decide_true, Bool.true_and] at this
    simp [this]
  · simp [h]

/-- A row of the table, its mask blind to `DATA`, decides `meets` on the word without data. -/
theorem meets_of (g : Geometry) (b : Bool) (a : Addr) (d : Word) (row : TableRow) (hr : row ∈ opcodeTable)
    (hm : (row.maskFor g).extractLsb' 0 16 = 0#16) (h : mkTrans b a 0#16 &&& row.maskFor g = row.pattern) :
    meets g row.mnemonic (mkTrans b a d) :=
  ⟨row, hr, rfl, by rw [mask_data _ _ _ _ hm, h]⟩

theorem wrCtrl (data : Word) : Statement (.wrCtrl data) := fun g _ =>
  meets_of g true 0x00#8 data opcodeTable[0] (by decide) (by cases g <;> decide) (by cases g <;> decide)

theorem rdCtrl : Statement .rdCtrl := fun g _ =>
  meets_of g false 0x00#8 0#16 opcodeTable[1] (by decide) (by cases g <;> decide) (by cases g <;> decide)

theorem wrCommit (data : Word) : Statement (.wrCommit data) := fun g _ =>
  meets_of g true 0x01#8 data opcodeTable[2] (by decide) (by cases g <;> decide) (by cases g <;> decide)

theorem rdCommit : Statement .rdCommit := fun g _ =>
  meets_of g false 0x01#8 0#16 opcodeTable[3] (by decide) (by cases g <;> decide) (by cases g <;> decide)

theorem wrScroll (data : Word) : Statement (.wrScroll data) := fun g _ =>
  meets_of g true 0x02#8 data opcodeTable[4] (by decide) (by cases g <;> decide) (by cases g <;> decide)

theorem rdScroll : Statement .rdScroll := fun g _ =>
  meets_of g false 0x02#8 0#16 opcodeTable[5] (by decide) (by cases g <;> decide) (by cases g <;> decide)

/-- The masks of the row windows on every row number (30_encoding R92). -/
theorem wrStage_mask : ∀ (g : Geometry) (r : RowIx), r.toNat < g.h →
    mkTrans true (0x10#8 + r.zeroExtend 8) 0#16 &&& opcodeTable[6].maskFor g = opcodeTable[6].pattern
  | .g8 => by decide
  | .g16 => by decide

theorem wrStage (r : RowIx) (data : Word) : Statement (.wrStage r data) := fun g h =>
  meets_of g true _ data opcodeTable[6] (by decide) (by cases g <;> decide)
    (wrStage_mask g r (by simpa [Instr.wellFormed] using h))

/-- The masks of the row windows on every row number (30_encoding R92). -/
theorem rdStage_mask : ∀ (g : Geometry) (r : RowIx), r.toNat < g.h →
    mkTrans false (0x10#8 + r.zeroExtend 8) 0#16 &&& opcodeTable[7].maskFor g = opcodeTable[7].pattern
  | .g8 => by decide
  | .g16 => by decide

theorem rdStage (r : RowIx) : Statement (.rdStage r) := fun g h =>
  meets_of g false _ 0#16 opcodeTable[7] (by decide) (by cases g <;> decide)
    (rdStage_mask g r (by simpa [Instr.wellFormed] using h))

/-- The masks of the row windows on every row number (30_encoding R92). -/
theorem rdVrow_mask : ∀ (g : Geometry) (r : RowIx), r.toNat < g.h →
    mkTrans false (0x20#8 + r.zeroExtend 8) 0#16 &&& opcodeTable[8].maskFor g = opcodeTable[8].pattern
  | .g8 => by decide
  | .g16 => by decide

theorem rdVrow (r : RowIx) : Statement (.rdVrow r) := fun g h =>
  meets_of g false _ 0#16 opcodeTable[8] (by decide) (by cases g <;> decide)
    (rdVrow_mask g r (by simpa [Instr.wellFormed] using h))

/-- The catch-all's mask sees only `RW`. -/
theorem wrIgnored_mask (g : Geometry) (addr : Addr) :
    mkTrans true addr 0#16 &&& opcodeTable[9].maskFor g = opcodeTable[9].pattern := by
  have h : opcodeTable[9].maskFor g = 0x1000000#25 := by cases g <;> rfl
  rw [h]
  apply BitVec.eq_of_getLsbD_eq
  intro i hi
  have hp : opcodeTable[9].pattern = 0x1000000#25 := rfl
  rw [hp, BitVec.getLsbD_and]
  by_cases h24 : i = 24
  · subst h24
    have hb : (mkTrans true addr 0#16).getLsbD 24 = true := rw_mkTrans true addr 0#16
    rw [hb]; rfl
  · have h0 : (0x1000000#25).getLsbD i = false := by
      revert i; decide
    simp [h0]

theorem wrIgnored (addr : Addr) (data : Word) : Statement (.wrIgnored addr data) := fun g _ =>
  meets_of g true addr data opcodeTable[9] (by decide) (by cases g <;> decide) (wrIgnored_mask g addr)

/-- The catch-all's mask sees only `RW`. -/
theorem rdZero_mask (g : Geometry) (addr : Addr) :
    mkTrans false addr 0#16 &&& opcodeTable[10].maskFor g = opcodeTable[10].pattern := by
  have h : opcodeTable[10].maskFor g = 0x1000000#25 := by cases g <;> rfl
  rw [h]
  apply BitVec.eq_of_getLsbD_eq
  intro i hi
  have hp : opcodeTable[10].pattern = 0x0000000#25 := rfl
  rw [hp, BitVec.getLsbD_and]
  by_cases h24 : i = 24
  · subst h24
    have hb : (mkTrans false addr 0#16).getLsbD 24 = false := rw_mkTrans false addr 0#16
    rw [hb]; rfl
  · have h0 : (0x1000000#25).getLsbD i = false := by
      revert i; decide
    simp [h0]

theorem rdZero (addr : Addr) : Statement (.rdZero addr) := fun g _ =>
  meets_of g false addr 0#16 opcodeTable[10] (by decide) (by cases g <;> decide) (rdZero_mask g addr)

theorem tick : Statement .tick := fun _ _ => rfl
theorem reset : Statement .reset := fun _ _ => rfl
theorem setDisplay (b : Option Byte) : Statement (.setDisplay b) := fun _ _ => ⟨_, _, rfl, rfl⟩
theorem setMessage (text : List Byte) : Statement (.setMessage text) := fun _ _ => ⟨_, _, rfl, rfl⟩
theorem setScrollSpeed (speed : Option Byte) : Statement (.setScrollSpeed speed) := fun _ _ => ⟨_, _, rfl, rfl⟩
theorem setDisplayMode (modeId : Option Byte) : Statement (.setDisplayMode modeId) := fun _ _ => ⟨_, _, rfl, rfl⟩
theorem showTempMessage (text : List Byte) : Statement (.showTempMessage text) := fun _ _ => ⟨_, _, rfl, rfl⟩

theorem unknownCommand (opcode : Byte) (payload : List Byte) : Statement (.unknownCommand opcode payload) := fun _ h => by
  refine ⟨opcode, payload, rfl, ?_⟩
  have h5 : 5 ≤ opcode.toNat := by simpa [Instr.wellFormed] using h
  unfold opcodeIs
  split <;> first | omega | rfl

end Sys2Proof.Laws.EncodeForm
end

