-- ==== Sys2Proof/Laws/Run.lean ====
section
/-! SUPPORT. Runs of several steps, and what the step does with an operation at the head of the inputs. -/

namespace Sys2Proof.Machine

@[simp] theorem runSteps_zero (s : State) : runSteps 0 s = .next s := rfl

theorem runSteps_next {k : Nat} {s t : State} (h : step s = .next t) : runSteps (k + 1) s = runSteps k t := by
  rw [runSteps, h]

theorem runSteps_one {s t : State} (h : step s = .next t) : runSteps 1 s = .next t := runSteps_next h

/-- A run goes on from where a shorter one ended. -/
theorem runSteps_add {k : Nat} {s t : State} (n : Nat) (h : runSteps k s = .next t) :
    runSteps (k + n) s = runSteps n t := by
  induction k generalizing s with
  | zero => cases h; rw [Nat.zero_add]
  | succ k ih =>
    rw [Nat.add_right_comm]
    cases hs : step s with
    | next u => rw [runSteps_next hs] at h ⊢; exact ih h
    | fault r => cases r
    | refused r => rw [runSteps, hs] at h; cases h

theorem coreRun_next (M : Host.Core) {k : Nat} {s t : M.State} (h : M.step s = .next t) :
    M.run (k + 1) s = M.run k t := by
  rw [Host.Core.run, h]

theorem coreRun_refused (M : Host.Core) {k : Nat} {s : M.State} {r : M.Refusal} (h : M.step s = .refused r) :
    M.run (k + 1) s = .refused r := by
  rw [Host.Core.run, h]

/-- `runSteps` is the host's `Core.run` of this machine. -/
theorem runSteps_eq_run (k : Nat) (s : State) : runSteps k s = Host.Core.run Sys2Proof.core k s := by
  induction k generalizing s with
  | zero => rfl
  | succ k ih =>
    cases h : step s with
    | next t => exact (runSteps_next h).trans ((ih t).trans (coreRun_next Sys2Proof.core h).symm)
    | fault r => cases r
    | refused r =>
      have h2 : runSteps (k + 1) s = .refused r := by rw [runSteps, h]
      exact h2.trans (coreRun_refused Sys2Proof.core h).symm

/-- MainFlow's next step is a host-port operation. -/
theorem mainStep_op {s : State} {op : MainOp} {rest : List MainOp} {i : Instr} (hp : s.host.pending = op :: rest)
    (hi : op.toInstr s.hpRdata = some i) : mainStep s = exec i { s with host.pending := rest } := by
  simp [mainStep, hp, hi]

/-- MainFlow's next step is an update of a variable of its own. -/
theorem mainStep_update {s : State} {op : MainOp} {rest : List MainOp} (hp : s.host.pending = op :: rest)
    (hi : op.toInstr s.hpRdata = none) : mainStep s = .next (hostUpdate op { s with host.pending := rest }) := by
  simp [mainStep, hp, hi]

/-- MainFlow has nothing to do. -/
theorem mainStep_idle {s : State} (hp : s.host.pending = []) : mainStep s = .next s := by
  simp [mainStep, hp]

/-- A pulse on `tick_req` is one tick. -/
theorem step_tickReq {s : State} {rest : List Input} (h : legalConfig s.cfg = true) (hp : s.tickPend = false)
    (hi : s.inputs = .op .tickReq :: rest) : step s = .next (tickBody { s with inputs := rest }) := by
  rw [step_input h hp hi]
  simp only [acceptInput, runForm, decode, exec_tick, enterTick_requestTick]
  congr 2
  cases s; cases hp; cases hi; rfl

end Sys2Proof.Machine
end

