-- ==== Sys2Proof/Tests/Slice0.lean ====
section
/-! SUPPORT. The model's own tests. Expected words and results are those of 95_test_vectors (the vector is named), of the
encodings of 30_encoding R92, R96 and of 10_state R47; the witnesses show that the hypotheses of each statement can be
met. -/

namespace Sys2Proof.Tests

open Sys2Proof Sys2Proof.Machine

/-! Helpers. -/

/-- The outcome is a next state with the property. -/
def nextIs (r : Result) (p : State → Bool) : Bool :=
  match r with
  | .next t => p t
  | .fault _ => false
  | .refused _ => false

/-- A surface of `n` equal rows. -/
def flat (n : Nat) (v : Word) : List Word := List.replicate n v

/-- The position and the row of V-TK-1: `ROW = 3`, `BLANK = 0`, `ACTIVE[3] = 0x18`, and a request pending. -/
def mid (l : List Input) : State :=
  { State.reset with
    stage := flat 8 0x0F#16, active := [0x81#16, 0x42#16, 0x24#16, 0x18#16, 0x18#16, 0x24#16, 0x42#16, 0x81#16]
    row := 3, blank := 0, creq := true, scrollIdx := 29, hpRdata := 0x1234#16, inputs := l
    host := { State.reset.host with
      msg := { text := [0x41#8, 0x42#8], width := 7, cursor := 3 }
      mode := .scrollingText, lastDrawMs := 100 }
    nowMs := 5000 }

/-- The same at the end of a pass: `ROW = 7`, `BLANK = 0` (V-TK-6). -/
def passEnd (l : List Input) : State := { mid l with row := 7 }

/-- A host on the direct path, in StaticText, the pattern of V-ANIM-1. -/
def direct (m : Mode) (l : List Input) : State :=
  { mid l with
    cfg := { Config.default with
      pattern := List.replicate 8 0xFFFFFF0F, host := { HostParams.illustrative with directAnim := true } }
    host.mode := m, host.changed := true }

/-- The invariant does not look at the inputs. -/
theorem inv_of_inputs {s : State} (h : s.Inv) (l : List Input) : ({ s with inputs := l } : State).Inv := by
  cases h; constructor <;> assumption

theorem mid_stage_fits : ∀ v ∈ flat 8 0x0F#16, v.toNat < 256 := by simp [flat]
theorem mid_active_fits : ∀ v ∈ [0x81#16, 0x42#16, 0x24#16, 0x18#16, 0x18#16, 0x24#16, 0x42#16, 0x81#16],
    v.toNat < 256 := by simp

/-- `mid` meets the invariant. -/
theorem mid_nil_inv : (mid []).Inv where
  legal := by decide
  stage_length := by decide
  stage_fits := mid_stage_fits
  active_length := by decide
  active_fits := mid_active_fits
  row_lt := by decide
  blank_le := by decide
  src_off := by decide
  scroll_lt := by decide
  no_pending_tick := by decide
  sr_fits := by decide
  q_fits := by decide
  sclk_low := by decide
  latch_high := by decide
  msg_text_le := by decide
  msg_width := by decide
  cursor_ge := by decide
  cursor_le := by decide
  overlay_text_le := by decide
  interval_ge := by decide
  interval_le := by decide
  pending_rows := by decide

theorem mid_inv (l : List Input) : (mid l).Inv := inv_of_inputs mid_nil_inv l

theorem passEnd_inv (l : List Input) : (passEnd l).Inv :=
  { mid_inv l with row_lt := (by decide : 7 < Geometry.g8.h) }

theorem direct_inv (m : Mode) (l : List Input) : (direct m l).Inv :=
  { mid_inv l with legal := (by decide : legalConfig (direct .animation []).cfg = true) }

/-! WellFormed: one ill-formed term for each check, and its well-formed neighbour. -/

theorem test_wf_wrStage_row : (Instr.wrStage 8#4 0#16).wellFormed .g8 = false ∧
    (Instr.wrStage 7#4 0#16).wellFormed .g8 = true ∧ (Instr.wrStage 15#4 0#16).wellFormed .g16 = true := by decide
theorem test_wf_rdStage_row : (Instr.rdStage 8#4).wellFormed .g8 = false ∧
    (Instr.rdStage 8#4).wellFormed .g16 = true := by decide
theorem test_wf_rdVrow_row : (Instr.rdVrow 15#4).wellFormed .g8 = false ∧
    (Instr.rdVrow 15#4).wellFormed .g16 = true := by decide
theorem test_wf_wrIgnored_low : (Instr.wrIgnored 0x02#8 0#16).wellFormed .g8 = false ∧
    (Instr.wrIgnored 0x03#8 0#16).wellFormed .g8 = true := by decide
theorem test_wf_wrIgnored_window : (Instr.wrIgnored 0x18#8 0#16).wellFormed .g16 = false ∧
    (Instr.wrIgnored 0x17#8 0#16).wellFormed .g8 = false ∧
    (Instr.wrIgnored 0x18#8 0#16).wellFormed .g8 = true ∧ (Instr.wrIgnored 0x20#8 0#16).wellFormed .g8 = true := by decide
theorem test_wf_rdZero_low : (Instr.rdZero 0x00#8).wellFormed .g8 = false := by decide
theorem test_wf_rdZero_stage : (Instr.rdZero 0x10#8).wellFormed .g8 = false := by decide
theorem test_wf_rdZero_vrow : (Instr.rdZero 0x27#8).wellFormed .g8 = false ∧
    (Instr.rdZero 0x28#8).wellFormed .g8 = true ∧ (Instr.rdZero 0x28#8).wellFormed .g16 = false := by decide
theorem test_wf_setMessage_newline : (Instr.setMessage [0x41#8, 0x0A#8]).wellFormed .g8 = false := by decide
theorem test_wf_showTempMessage_newline : (Instr.showTempMessage [0x0A#8]).wellFormed .g8 = false := by decide
theorem test_wf_unknownCommand_opcode : (Instr.unknownCommand 0x04#8 []).wellFormed .g8 = false ∧
    (Instr.unknownCommand 0x05#8 []).wellFormed .g8 = true := by decide

/-! Decode: a word or the bytes of every constructor, written out from the encoding. -/

theorem test_decode_wrCtrl : decode .g8 (.word 0x100FFFE#25) = .ok (.wrCtrl 0xFFFE#16) := rfl
theorem test_decode_rdCtrl : decode .g8 (.word 0x0000000#25) = .ok .rdCtrl := rfl
theorem test_decode_wrCommit : decode .g8 (.word 0x1010001#25) = .ok (.wrCommit 1#16) := rfl
theorem test_decode_rdCommit : decode .g8 (.word 0x0010000#25) = .ok .rdCommit := rfl
theorem test_decode_wrScroll : decode .g8 (.word 0x1021234#25) = .ok (.wrScroll 0x1234#16) := rfl
theorem test_decode_rdScroll : decode .g8 (.word 0x0020000#25) = .ok .rdScroll := rfl
theorem test_decode_wrStage : decode .g8 (.word 0x1130018#25) = .ok (.wrStage 3#4 0x0018#16) := rfl
theorem test_decode_wrStage_g16 : decode .g16 (.word 0x11FBEEF#25) = .ok (.wrStage 15#4 0xBEEF#16) := rfl
theorem test_decode_rdStage : decode .g8 (.word 0x0130000#25) = .ok (.rdStage 3#4) := rfl
theorem test_decode_rdVrow : decode .g8 (.word 0x0250000#25) = .ok (.rdVrow 5#4) := rfl
theorem test_decode_wrIgnored : decode .g8 (.word 0x17FABCD#25) = .ok (.wrIgnored 0x7F#8 0xABCD#16) := rfl
theorem test_decode_wrIgnored_vrow : decode .g8 (.word 0x120FFFF#25) = .ok (.wrIgnored 0x20#8 0xFFFF#16) := rfl
theorem test_decode_rdZero : decode .g8 (.word 0x07F0000#25) = .ok (.rdZero 0x7F#8) := rfl
theorem test_decode_read_ignores_data : decode .g8 (.word 0x000FFFF#25) = .ok .rdCtrl := rfl
theorem test_decode_tick : decode .g8 .tickReq = .ok .tick := rfl
theorem test_decode_reset : decode .g8 .rst = .ok .reset := rfl
theorem test_decode_setDisplay : decode .g8 (.bus [0x00#8, 0xFF#8]) = .ok (.setDisplay (some 0xFF#8)) := rfl
theorem test_decode_setDisplay_short : decode .g8 (.bus [0x00#8]) = .ok (.setDisplay none) := rfl
theorem test_decode_setMessage :
    decode .g8 (.bus [0x01#8, 0x68#8, 0x69#8, 0x0A#8]) = .ok (.setMessage [0x68#8, 0x69#8]) := rfl
theorem test_decode_setMessage_open :
    decode .g8 (.bus [0x01#8, 0x68#8, 0x69#8]) = .ok (.setMessage [0x68#8, 0x69#8]) := rfl
theorem test_decode_setScrollSpeed : decode .g8 (.bus [0x02#8, 0x64#8]) = .ok (.setScrollSpeed (some 0x64#8)) := rfl
theorem test_decode_setDisplayMode : decode .g8 (.bus [0x03#8, 0x01#8]) = .ok (.setDisplayMode (some 0x01#8)) := rfl
theorem test_decode_showTempMessage :
    decode .g8 (.bus [0x04#8, 0x4F#8, 0x4B#8, 0x0A#8]) = .ok (.showTempMessage [0x4F#8, 0x4B#8]) := rfl
theorem test_decode_unknownCommand :
    decode .g8 (.bus [0x7F#8, 0x01#8, 0x02#8]) = .ok (.unknownCommand 0x7F#8 [0x01#8, 0x02#8]) := rfl
theorem test_decode_no_opcode : decode .g8 (.bus []) = .error .noOpcode := rfl
theorem test_tableWord_row : decodeTableWord 25 0x1130018 = some (.wrStage 3#4 0x0018#16) := by decide
theorem test_tableWord_command : decodeTableWord 8 0x03 = some (.setDisplayMode (some 0#8)) := by decide

/-! One step of each instruction. -/

/-- V-HP-6 -/
theorem test_wrCtrl : nextIs (exec (.wrCtrl 0xFFFE#16) State.reset) (fun t => !t.dispEn && t.src && t.oeN) = true := by
  decide
/-- V-HP-6, without the direct path -/
theorem test_wrCtrl_noDirect :
    nextIs (exec (.wrCtrl 0xFFFE#16) (powerOn { Config.default with hasDirectAnim := false }))
      (fun t => !t.dispEn && !t.src) = true := by decide
/-- V-HP-5 -/
theorem test_rdCtrl : nextIs (exec .rdCtrl State.reset) (fun t => t.hpRdata == 0x0001#16) = true := by decide
/-- V-HP-6 -/
theorem test_rdCtrl_src :
    nextIs (exec .rdCtrl { State.reset with dispEn := false, src := true }) (fun t => t.hpRdata == 0x0002#16) = true := by
  decide
/-- V-HP-8 -/
theorem test_wrCommit : nextIs (exec (.wrCommit 0xFFFF#16) State.reset) (fun t => t.creq) = true := by decide
/-- V-HP-8: 0 does not clear -/
theorem test_wrCommit_zero : nextIs (exec (.wrCommit 0#16) (mid [])) (fun t => t.creq) = true := by decide
/-- V-HP-8 -/
theorem test_rdCommit : nextIs (exec .rdCommit (mid [])) (fun t => t.hpRdata == 0x0001#16) = true := by decide
/-- V-HP-9, the wrap -/
theorem test_wrScroll :
    nextIs (exec (.wrScroll 0x1234#16) { State.reset with scrollIdx := 31 }) (fun t => t.scrollIdx == 0) = true := by
  decide
/-- S-C -/
theorem test_rdScroll : nextIs (exec .rdScroll (mid [])) (fun t => t.hpRdata == 0x001D#16) = true := by decide
/-- V-HP-2 -/
theorem test_wrStage : nextIs (exec (.wrStage 3#4 0x1F18#16) State.reset)
    (fun t => t.stage == [0#16, 0#16, 0#16, 0x18#16, 0#16, 0#16, 0#16, 0#16]) = true := by decide
/-- V-HP-3 -/
theorem test_wrStage_g16 : nextIs (exec (.wrStage 15#4 0xBEEF#16) (powerOn Config.default16))
    (fun t => t.stage == flat 15 0#16 ++ [0xBEEF#16]) = true := by decide
/-- V-HP-13, the read -/
theorem test_rdStage :
    nextIs (exec (.rdStage 0#4) { State.reset with stage := 0x81#16 :: flat 7 0#16 }) (fun t => t.hpRdata == 0x81#16) =
      true := by decide
/-- V-HP-10 -/
theorem test_rdVrow : nextIs (exec (.rdVrow 0#4) { direct .animation [] with scrollIdx := 0 })
    (fun t => t.hpRdata == 0x00F0#16) = true := by decide
/-- V-ANIM-1, wrapped round the field -/
theorem test_rdVrow_wraps : nextIs (exec (.rdVrow 7#4) (direct .animation [])) (fun t => t.hpRdata == 0x001E#16) = true := by
  decide
/-- V-HP-12 -/
theorem test_wrIgnored : nextIs (exec (.wrIgnored 0x7F#8 0xABCD#16) (mid [])) (fun t => decide (t = mid [])) = true := by
  decide
/-- V-HP-12 -/
theorem test_rdZero : nextIs (exec (.rdZero 0xFF#8) (mid [])) (fun t => t.hpRdata == 0#16) = true := by decide
/-- V-TK-1 -/
theorem test_tick : nextIs (exec .tick { mid [] with creq := false })
    (fun t => t.panel.q == 0xE7F7#32 && t.row == 4 && t.blank == 2) = true := by decide
/-- V-TK-6: the row sent is the old one -/
theorem test_tick_copies : nextIs (exec .tick (passEnd []))
    (fun t => t.panel.q == 0x7E7F#32 && t.row == 0 && t.blank == 2 && !t.creq && t.active == flat 8 0x0F#16) = true := by
  decide
/-- R47 -/
theorem test_reset : nextIs (exec .reset (mid []))
    (fun t => t.stage == flat 8 0#16 && t.active == flat 8 0#16 && !t.creq && t.row == 0 && t.blank == 2 &&
      t.scrollIdx == 0 && t.dispEn && t.panel.latch && t.host.mode == .animation) = true := by decide
/-- V-BUS-1, V-HP-16: the two operations it issues -/
theorem test_setDisplay : nextIs (exec (.setDisplay (some 0#8)) State.reset)
    (fun t => t.host.pending == [.rdCtrl, .wrCtrlBack 0xFFFE#16 0#16]) = true := by decide
/-- V-BUS-6 -/
theorem test_setMessage :
    nextIs (exec (.setMessage [0x61#8, 0x62#8, 0x63#8, 0x64#8, 0x65#8, 0x66#8]) State.reset)
      (fun t => t.host.msg.text == [0x61#8, 0x62#8, 0x63#8, 0x64#8] && t.host.msg.cursor == 8 && t.host.changed) = true := by
  decide
/-- V-HOST-2 -/
theorem test_setMessage_width : nextIs (exec (.setMessage [0x41#8, 0x3F#8, 0x42#8]) State.reset)
    (fun t => t.host.msg.width == 7) = true := by decide
/-- V-BUS-8 -/
theorem test_setScrollSpeed :
    nextIs (exec (.setScrollSpeed (some 0x21#8)) State.reset) (fun t => t.host.intervalMs == 154) = true := by decide
/-- V-BUS-8, clamped -/
theorem test_setScrollSpeed_clamped :
    nextIs (exec (.setScrollSpeed (some 0xFF#8)) State.reset) (fun t => t.host.intervalMs == 20) = true := by decide
/-- V-BUS-9 -/
theorem test_setDisplayMode : nextIs (exec (.setDisplayMode (some 2#8)) { State.reset with host.changed := false })
    (fun t => t.host.mode == .staticText && t.host.changed) = true := by decide
/-- V-BUS-10 -/
theorem test_setDisplayMode_ignored :
    nextIs (exec (.setDisplayMode (some 3#8)) (mid [])) (fun t => decide (t = mid [])) = true := by decide
/-- V-BUS-11: the text of no glyph is a clear, a commit and the overlay's start -/
theorem test_showTempMessage : nextIs (exec (.showTempMessage [0x4F#8, 0x4B#8]) State.reset)
    (fun t => t.host.overlayText == [0x4F#8, 0x4B#8] && t.host.pending ==
      [.wrStage 0#4 0#16, .wrStage 1#4 0#16, .wrStage 2#4 0#16, .wrStage 3#4 0#16, .wrStage 4#4 0#16, .wrStage 5#4 0#16,
        .wrStage 6#4 0#16, .wrStage 7#4 0#16, .commit, .overlayShown]) = true := by decide
/-- V-BUS-12 -/
theorem test_unknownCommand :
    nextIs (exec (.unknownCommand 0x7F#8 [1#8, 2#8]) (mid [])) (fun t => decide (t = mid [])) = true := by decide

/-! The pixels of V-HOST-1 and V-HOST-4, the cursor of V-HOST-9, the serial frame of V-TK-1. -/

theorem test_drawChar : charPixels Font.illustrative 2 4 0x41#8 = [(3, 2), (2, 3), (3, 3), (4, 3), (2, 4), (4, 4)] := by
  decide
theorem test_drawString_stops : stringPixels Font.illustrative 6 4 8 8 [0x41#8, 0x42#8] =
    [(7, 2), (6, 3), (7, 3), (8, 3), (6, 4), (8, 4)] := by decide
theorem test_cursor_wraps : (scrollTick 8 { text := [], width := 7, cursor := -7 }).cursor = 8 ∧
    (scrollTick 8 { text := [], width := 7, cursor := -6 }).cursor = -7 := by decide
theorem test_serialFrame : serialFrame .g8 0xE7#16 0xF7#16 =
    [true, true, true, false, false, true, true, true, true, true, true, true, false, true, true, true] := by decide

/-- D21: the 16×16 defaults. -/
theorem test_default16 : legalConfig Config.default16 = true ∧ (Config.defaultFor .g16).b = 0 ∧
    (Config.defaultFor .g16).sw = 32 ∧ (powerOn (Config.defaultFor .g16)).stage.length = 16 ∧
    powerOn (Config.defaultFor .g8) = State.reset := by decide

/-! Witnesses: the hypotheses of the statements, met. -/

theorem witness_DecodeEncodeRoundTrip : (Instr.wrStage 15#4 0xFFFF#16).wellFormed .g16 = true ∧
    (Instr.setMessage [0x41#8]).wellFormed .g8 = true := by decide
theorem witness_DecodedInstructionsAreWellFormed :
    decode .g8 (.word 0x1170081#25) = .ok (.wrStage 7#4 0x81#16) ∧
    decode .g8 (.bus [0x05#8]) = .ok (.unknownCommand 0x05#8 []) := ⟨rfl, rfl⟩
theorem witness_OpcodeMapSelectsByRwAndAddress :
    (0x00#8).toNat = 0x00 ∧ (0x01#8).toNat = 0x01 ∧ (0x02#8).toNat = 0x02 ∧
    ((0#4).toNat < Geometry.g8.h ∧ (0x10#8).toNat = 0x10 + (0#4).toNat) ∧
    ((7#4).toNat < Geometry.g8.h ∧ (0x17#8).toNat = 0x10 + (7#4).toNat) ∧
    ((15#4).toNat < Geometry.g16.h ∧ (0x2F#8).toNat = 0x20 + (15#4).toNat) ∧
    (2 < (0x18#8).toNat ∧ ¬ (0x10 ≤ (0x18#8).toNat ∧ (0x18#8).toNat < 0x10 + Geometry.g8.h)) ∧
    (2 < (0x03#8).toNat ∧ ¬ (0x10 ≤ (0x03#8).toNat ∧ (0x03#8).toNat < 0x10 + Geometry.g8.h) ∧
      ¬ (0x20 ≤ (0x03#8).toNat ∧ (0x03#8).toNat < 0x20 + Geometry.g8.h)) ∧
    (2 < (0x30#8).toNat ∧ ¬ (0x10 ≤ (0x30#8).toNat ∧ (0x30#8).toNat < 0x10 + Geometry.g16.h) ∧
      ¬ (0x20 ≤ (0x30#8).toNat ∧ (0x30#8).toNat < 0x20 + Geometry.g16.h)) := by decide
theorem witness_BusBytesDecode : textWellFormed [0x68#8, 0x69#8] = true ∧ textWellFormed [] = true ∧
    5 ≤ (0x05#8).toNat ∧ 5 ≤ (0xFF#8).toNat := by decide
theorem witness_StepRunsTheDecodedOperation :
    (legalConfig (mid [.op (.word 0x1010001#25)]).cfg = true ∧ (mid [.op (.word 0x1010001#25)]).tickPend = false ∧
      (mid [.op (.word 0x1010001#25)]).host.pending = [] ∧
      (mid [.op (.word 0x1010001#25)]).inputs = .op (.word 0x1010001#25) :: [] ∧
      decode (mid []).cfg.geo (.word 0x1010001#25) = .ok (.wrCommit 1#16)) ∧
    ({ mid [.op .tickReq] with host.pending := [.commit] }.host.pending ≠ [] ∧
      (mid [.op .tickReq]).inputs = .op .tickReq :: [] ∧ decode (mid []).cfg.geo .tickReq = .ok .tick) ∧
    (formOfTableWord 25 0x1010001 = some (.word 0x1010001#25) ∧
      formOfTableWord 8 0x00 = some (.bus [0x00#8, 0x00#8])) := by decide
theorem witness_RoutineIsTakenOneOperationAStep :
    legalConfig { mid [] with host.pending := [.rdCtrl] }.cfg = true ∧
    MainOp.rdCtrl.toInstr (mid []).hpRdata = some .rdCtrl ∧
    (MainOp.wrCtrlBack 0xFFFE#16 1#16).toInstr (mid []).hpRdata = some (.wrCtrl 0x1235#16) ∧
    (mid []).inputs = [] ∧ (mid [.go]).inputs = .go :: [] := by decide
theorem witness_MainFlowInputsWaitForItsRoutine :
    { mid [.loop] with host.pending := [.commit] }.host.pending = .commit :: [] ∧
    legalConfig (mid [.loop]).cfg = true ∧ (mid [.loop]).inputs = .loop :: [] ∧
    Input.loop.forMain = true ∧ (Input.op (.bus [0x01#8])).forMain = true ∧ (mid [.loop]).tickPend = false ∧
    MainOp.commit.toInstr (mid []).hpRdata = some (.wrCommit 1#16) ∧
    MainOp.overlayShown.toInstr (mid []).hpRdata = none := by decide
/-- A tick request while a routine of two operations is pending. -/
theorem witness_TickPreemptsARunningRoutine :
    { mid [tickInput] with host.pending := [.wrCtrlBack 0xFFFE#16 1#16, .commit] }.Inv ∧
    { mid [tickInput] with host.pending := [.wrCtrlBack 0xFFFE#16 1#16, .commit] }.inputs = tickInput :: [] :=
  ⟨{ mid_inv [tickInput] with pending_rows := by simp [MainOp.rowOk] }, rfl⟩
theorem witness_ResetComesBeforeEverything :
    legalConfig { mid [.op .rst] with tickPend := true }.cfg = true ∧ (mid [.op .rst]).inputs = .op .rst :: [] := by decide
theorem witness_EveryStepOfALegalMachineAnswers : legalConfig (mid []).cfg = true ∧
    legalConfig { Config.default with b := 255 } = true ∧ legalConfig { Config.default with b := 256 } = false ∧
    legalConfig { Config.default with sw := 8 } = false := by decide
theorem witness_PowerOnMeetsTheInvariant : legalConfig Config.default = true ∧
    legalConfig { Config.default with geo := .g16, pattern := List.replicate 16 0, b := 0 } = true := by decide
theorem witness_StepKeepsTheInvariant : (mid [tickInput]).Inv ∧ ∃ t, step (mid [tickInput]) = .next t :=
  ⟨mid_inv _, _, rfl⟩
theorem witness_ConfigurationIsFixedAndSynchronizerUnseen :
    (∃ t, step (mid [.op .rst]) = .next t) ∧ (3 ≤ 3 ∧ 0 < 1) ∧
    (mid [tickInput, .op (encode (.wrCommit 1#16)), .busRead]).Inv ∧
    (∃ t, exec .tick { mid [tickInput, .op (encode (.wrCommit 1#16)), .busRead] with inputs := [.busRead] } = .next t) :=
  ⟨⟨_, rfl⟩, by decide, mid_inv _, _, rfl⟩
theorem witness_WrStageWritesOneRow : (mid []).stage.length = (mid []).cfg.geo.h ∧
    (0#4).toNat < (mid []).cfg.geo.h ∧ (7#4).toNat < (mid []).cfg.geo.h := by decide
theorem witness_WrCommitOnlySetsTheRequest : (1#16).getLsbD 0 = true ∧ (0xFFFE#16).getLsbD 0 = false := by decide
theorem witness_WrScrollAdvancesTheIndex : (mid []).scrollIdx + 1 < (mid []).cfg.sw ∧
    { mid [] with scrollIdx := 31 }.scrollIdx + 1 = (mid []).cfg.sw ∧
    (0x10#8).toNat ≠ 0x02 ∧ ¬ (0x20 ≤ (0x10#8).toNat ∧ (0x10#8).toNat < 0x20 + (mid []).cfg.geo.h) := by decide
theorem witness_ReadsReturnTheirRegister : (mid []).scrollIdx < 65536 := by decide
theorem witness_StageReadsBackWhatWasWritten :
    (mid [.op (encode (.wrStage 7#4 0x1F18#16)), .op (encode (.rdStage 7#4)), .busRead]).Inv ∧
    (mid []).host.pending = [] ∧ (7#4).toNat < (mid []).cfg.geo.h := ⟨mid_inv _, rfl, by decide⟩
theorem witness_HostPortCannotReachTheScanState :
    ∃ t, exec (decodeWord (mid []).cfg.geo 0x100FFFE#25) (mid []) = .next t := ⟨_, rfl⟩
theorem witness_ScrollReturnsAfterSwAdvances :
    (mid (List.replicate 32 (.op (.word (mkTrans true 0x02#8 0x1234#16))) ++ [tickInput])).Inv ∧
    (mid []).host.pending = [] ∧ (mid []).cfg.sw = 32 := ⟨mid_inv _, rfl, rfl⟩
theorem witness_TickAdvancesTheSequencer : (mid []).blank = 0 ∧ 0 < { mid [] with blank := 1 }.blank := by decide
theorem witness_TickCopiesExactlyAtTheSafeInstant :
    nextIs (exec .tick (passEnd [])) (fun t => t.row == 0 && t.blank == (passEnd []).cfg.b) = true ∧
    (passEnd []).creq = true ∧
    nextIs (exec .tick (mid [])) (fun t => !(t.row == 0 && t.blank == (mid []).cfg.b)) = true := by decide
theorem witness_SafeInstantEndsThePass : (passEnd []).Inv ∧ (mid []).Inv ∧ (∃ t, exec .tick (passEnd []) = .next t) :=
  ⟨passEnd_inv _, mid_inv _, _, rfl⟩
theorem witness_TickLatchesItsCodes : 0 < { mid [] with blank := 2 }.blank ∧ { mid [] with dispEn := false }.dispEn = false ∧
    (mid []).blank = 0 ∧ (mid []).dispEn = true := by decide
theorem witness_DarkTickSendsTheAllDarkCode :
    (0 < { mid [] with blank := 2 }.blank ∨ { mid [] with blank := 2 }.dispEn = false) ∧
    (0 < { mid [] with dispEn := false }.blank ∨ { mid [] with dispEn := false }.dispEn = false) := by decide
theorem witness_SerialFrameFillsTheChain : (0xFF#16).toNat < 2 ^ Geometry.g8.w ∧ (0xF7#16).toNat < 2 ^ Geometry.g8.w ∧
    (0xFFFF#16).toNat < 2 ^ Geometry.g16.w := by decide
theorem witness_TickFrame : { mid [] with creq := false }.creq = false ∧ (mid []).creq = true ∧
    nextIs (exec .tick (mid [])) (fun t => t.creq) = true := by decide
theorem witness_TickKeepsItsInvariants : (mid []).Inv ∧ (∃ t, exec .tick (mid []) = .next t) := ⟨mid_inv _, _, rfl⟩
theorem witness_TicksGoRoundThePositions :
    (mid (List.replicate 24 tickInput ++ [.busRead])).Inv ∧
    (mid (List.replicate 24 tickInput ++ [.busRead])).inputs = List.replicate 24 tickInput ++ [.busRead] :=
  ⟨mid_inv _, rfl⟩
/-- A write among 24 ticks. -/
theorem witness_CommitIsServedWithinOnePass :
    (mid (.op (.word 0x1100055#25) :: List.replicate 24 tickInput)).Inv ∧
    (mid []).host.pending = [] ∧ (mid []).creq = true ∧
    (∀ e ∈ (mid (.op (.word 0x1100055#25) :: List.replicate 24 tickInput)).inputs,
      e = tickInput ∨ ∃ w, e = .op (.word w)) ∧
    passLength (mid []).cfg ≤ (.op (.word 0x1100055#25) :: List.replicate 24 tickInput : List Input).count tickInput := by
  refine ⟨mid_inv _, rfl, rfl, fun e he => ?_, by decide⟩
  rcases List.mem_cons.mp he with h | h
  · exact .inr ⟨_, h⟩
  · exact .inl (List.eq_of_mem_replicate h)
theorem witness_ActiveChangesOnlyByAWholeCopy : (∃ t, step (passEnd [tickInput]) = .next t) ∧
    (∃ t, step (mid [.op .rst]) = .next t) := ⟨⟨_, rfl⟩, _, rfl⟩
theorem witness_ActiveIsAlwaysOneCommittedFrame :
    (∀ e ∈ (passEnd [.op (.word 0x1100055#25), tickInput]).inputs, e ≠ .op .rst) ∧
    (∃ t, runSteps 2 (passEnd [.op (.word 0x1100055#25), tickInput]) = .next t) := ⟨by decide, _, rfl⟩
theorem witness_NoCommitRequestIsLost : (∃ t, step (passEnd [tickInput]) = .next t) ∧ (passEnd [tickInput]).creq = true ∧
    (passEnd [tickInput]).inputs.head? ≠ some (.op .rst) := ⟨⟨_, rfl⟩, rfl, by decide⟩
theorem witness_VisibleRowRotatesTheInvertedPattern : legalConfig (direct .animation []).cfg = true ∧
    0 < (direct .animation []).cfg.sw ∧ 31 < (direct .animation []).cfg.sw ∧ 7 < (direct .animation []).cfg.geo.h := by
  decide
theorem witness_AdvanceMovesTheVisibleRowOneColumn : legalConfig (direct .animation []).cfg = true ∧
    31 < (direct .animation []).cfg.sw ∧ 7 < (direct .animation []).cfg.geo.h ∧ 6 + 1 < (direct .animation []).cfg.geo.w := by
  decide
theorem witness_ResetGivesEveryResetValue : (mid []).cfg.host.directAnim = false := rfl
theorem witness_SetDisplayEnablesOrDisables : (mid []).Inv ∧ (mid []).host.pending = [] ∧ (mid []).inputs = [] :=
  ⟨mid_inv _, rfl, rfl⟩
theorem witness_TicksInsideSetDisplayDoNoHarm :
    (mid (.go :: (List.replicate 5 tickInput ++ .go :: [.busRead]))).Inv ∧ (mid []).host.pending = [] := ⟨mid_inv _, rfl⟩
theorem witness_SetScrollSpeedMapsInversely : (mid []).cfg.host.intervalMin ≤ (mid []).cfg.host.intervalMax ∧
    (0x00#8).toNat = 0 ∧ 100 ≤ (0x64#8).toNat ∧ 100 ≤ (0xFF#8).toNat ∧ (0x21#8).toNat ≤ (0x32#8).toNat ∧
    nextIs (exec (.setScrollSpeed (some 0x32#8)) (mid [])) (fun t => t.host.intervalMs == 120) = true := by decide
theorem witness_SetDisplayModeSelectsTheProducer : (0x00#8).toNat = 0 ∧ (0x01#8).toNat = 1 ∧ (0x02#8).toNat = 2 ∧
    2 < (0x03#8).toNat ∧ 2 < (0xFF#8).toNat ∧ (mid []).cfg.host.directAnim = false := by decide
theorem witness_DirectPathHostSwitchesTheSource :
    ((direct .staticText []).Inv ∧ (direct .staticText []).host.mode ≠ .animation ∧ (0x00#8).toNat = 0) ∧
    ((direct .animation []).Inv ∧ (direct .animation []).host.mode = .animation ∧ (0x02#8).toNat = 2) ∧
    (direct .animation []).host.pending = [] ∧ (direct .animation []).inputs = [] ∧
    (direct .animation []).cfg.host.directAnim = true ∧ (direct .animation []).cfg.hasDirectAnim = true ∧
    (direct .animation []).host.overlayActive = false :=
  ⟨⟨direct_inv _ _, by decide, rfl⟩, ⟨direct_inv _ _, rfl, rfl⟩, rfl, rfl, rfl, rfl, rfl⟩
theorem witness_ShowTempMessagePaintsTheOverlay : (mid []).Inv ∧ (mid []).host.pending = [] ∧ (mid []).inputs = [] ∧
    stringPixels (mid []).cfg.host.font (mid []).cfg.host.overlayX (mid []).cfg.host.overlayY 8 8 [0x41#8] ≠ [] :=
  ⟨mid_inv _, rfl, rfl, by decide⟩
theorem witness_MainLoopWithNothingDueChangesNothing :
    legalConfig (mid [.loop]).cfg = true ∧ (mid [.loop]).tickPend = false ∧ (mid [.loop]).host.pending = [] ∧
    (mid [.loop]).inputs = .loop :: [] ∧ { mid [.loop] with dispEn := false }.dispEn = false ∧
    ({ mid [.loop] with host.overlayActive := true, host.overlayStartMs := 4001 }.host.overlayActive = true ∧
      (mid [.loop]).nowMs < 4001 + (mid [.loop]).cfg.host.overlayMs) ∧
    ((mid [.loop]).host.overlayActive = false ∧
      { mid [.loop] with nowMs := 219 }.nowMs < (mid [.loop]).host.lastDrawMs + (mid [.loop]).host.intervalMs) := by decide
/-- V-HOST-12: the poll at 6000. -/
theorem witness_OverlayExpires :
    legalConfig (mid [.loop]).cfg = true ∧ (mid [.loop]).dispEn = true ∧ (mid [.loop]).inputs = .loop :: [] ∧
    { mid [.loop] with host.overlayActive := true, host.overlayStartMs := 5000, nowMs := 6000 }.host.overlayActive = true ∧
    5000 + (mid [.loop]).cfg.host.overlayMs ≤ 6000 ∧
    6000 < { mid [.loop] with host.lastDrawMs := 5900 }.host.lastDrawMs + (mid [.loop]).host.intervalMs ∧
    ((mid [.loop]).cfg.host.directAnim = false ∨ (mid [.loop]).host.mode ≠ .animation) ∧
    ((direct .animation [.loop]).cfg.host.directAnim = true ∧ (direct .animation [.loop]).cfg.hasDirectAnim = true ∧
      (direct .animation [.loop]).host.mode = .animation ∧ legalConfig (direct .animation [.loop]).cfg = true) := by decide
theorem witness_ScrollCursorCycles :
    ({ text := [0x41#8, 0x42#8], width := 7, cursor := 8 } : Message).cursor = (8 : Nat) ∧ 15 ≤ 8 + 7 := by decide
theorem witness_ScrollingRedrawPaintsTheMessage : (mid [.loop]).Inv ∧ (mid [.loop]).host.pending = [] ∧
    (mid [.loop]).inputs = [.loop] ∧ (mid [.loop]).dispEn = true ∧ (mid [.loop]).host.overlayActive = false ∧
    (mid [.loop]).host.mode = .scrollingText ∧
    (mid [.loop]).host.lastDrawMs + (mid [.loop]).host.intervalMs ≤ (mid [.loop]).nowMs :=
  ⟨mid_inv _, rfl, rfl, rfl, rfl, rfl, by decide⟩
theorem witness_StaticRedrawOnlyWhenChanged : (direct .staticText [.loop]).Inv ∧
    (direct .staticText [.loop]).host.pending = [] ∧ (direct .staticText [.loop]).inputs = [.loop] ∧
    (direct .staticText [.loop]).dispEn = true ∧ (direct .staticText [.loop]).host.overlayActive = false ∧
    (direct .staticText [.loop]).host.mode = .staticText ∧
    (direct .staticText [.loop]).host.lastDrawMs + (direct .staticText [.loop]).host.intervalMs ≤
      (direct .staticText [.loop]).nowMs ∧
    (direct .staticText [.loop]).host.changed = true ∧
    { direct .staticText [.loop] with host.changed := false }.host.changed = false :=
  ⟨direct_inv _ _, rfl, rfl, rfl, rfl, rfl, by decide, rfl, rfl⟩
theorem witness_AnimationRedrawPaintsTheVisibleRows :
    ((direct .animation [.loop]).Inv ∧ (direct .animation [.loop]).cfg.host.directAnim = true ∧
      (direct .animation [.loop]).host.mode = .animation) ∧
    (State.reset.cfg.host.directAnim = false ∧ State.reset.host.mode = .animation ∧
      { State.reset with nowMs := 120 }.host.lastDrawMs + State.reset.host.intervalMs ≤ 120) :=
  ⟨⟨direct_inv _ _, rfl, rfl⟩, by decide⟩
theorem witness_PlotWritesOnePixelAndClips :
    (mid []).Inv ∧ (mid []).inputs = [] ∧
    (plotOps .g8 true (7, 0)).length = 2 ∧ (plotOps .g8 false (0, 7)).length = 2 ∧ plotOps .g8 true (8, 0) = [] ∧
    plotOps .g8 true (-1, 3) = [] :=
  ⟨mid_inv _, rfl, by decide, by decide, by decide, by decide⟩
theorem witness_DrawingFollowsTheFontTable :
    (15 / 8 < Font.illustrative.blob.length) ∧
    (Font.illustrative.first ≤ (0x41#8).toNat ∧ (0x42#8).toNat ≤ Font.illustrative.last ∧
      Font.illustrative.glyphs[(0x41#8).toNat - Font.illustrative.first]?.isSome = true ∧
      Font.illustrative.glyphs[(0x42#8).toNat - Font.illustrative.first]?.isSome = true) ∧
    ((0x40#8).toNat < Font.illustrative.first ∧ Font.illustrative.last < (0x43#8).toNat) ∧
    ((-1 : Int) < 0 ∧ (8 : Int) ≤ 8 ∧ (0 : Int) ≤ 7 ∧ (7 : Int) < 8) := by decide
theorem witness_BusReadStrobesClockAndPin :
    legalConfig (mid [.busRead]).cfg = true ∧ (mid [.busRead]).tickPend = false ∧
    (mid [.busRead]).inputs = .busRead :: [] ∧ (mid []).host.pending = [] ∧
    (mid [.cycle true true 0x10#8 0x55#16]).inputs = .cycle true true 0x10#8 0x55#16 :: [] ∧
    (mid [.cycle true false 0x10#8 0x55#16]).inputs = .cycle true false 0x10#8 0x55#16 :: [] ∧
    (mid [.cycle false true 0x10#8 0x55#16]).inputs = .cycle false true 0x10#8 0x55#16 :: [] ∧
    (mid [.cycle false false 0x10#8 0x55#16]).inputs = .cycle false false 0x10#8 0x55#16 :: [] ∧
    (mid [.clock 6000]).inputs = .clock 6000 :: [] ∧ (mid [.aux true]).inputs = .aux true :: [] := by decide

end Sys2Proof.Tests
end

/-! Proofs of 00_scope: the configuration is fixed, and no step looks at the synchronizer's depth or at the tick period. -/

namespace Sys2Proof.Machine

/-! Updates and operations that are blind to the timing parameters. -/

/-- An update that leaves the configuration and does not look at the timing parameters (00_scope R8, 10_state R43). -/
structure TimingBlind (f : State → State) : Prop where
  cfg_eq : ∀ s, (f s).cfg = s.cfg
  withTiming_eq : ∀ s n p, f (s.withTiming n p) = (f s).withTiming n p

/-- From this state the operation answers a next state, with the same configuration, and answers the same whatever the
timing parameters are. -/
def AnswersBlind (run : State → Result) (s : State) : Prop :=
  ∃ t, run s = .next t ∧ t.cfg = s.cfg ∧ ∀ n p, run (s.withTiming n p) = .next (t.withTiming n p)

/-- One blind update after another. -/
theorem TimingBlind.comp {f g : State → State} (hg : TimingBlind g) (hf : TimingBlind f) :
    TimingBlind fun s => g (f s) where
  cfg_eq s := (hg.cfg_eq _).trans (hf.cfg_eq s)
  withTiming_eq s n p := by rw [hf.withTiming_eq, hg.withTiming_eq]

/-- A choice between blind updates, by a test that does not look at the timing parameters. -/
theorem TimingBlind.ite {c : State → Prop} [DecidablePred c] {f g : State → State}
    (hc : ∀ s n p, c (s.withTiming n p) ↔ c s) (hf : TimingBlind f) (hg : TimingBlind g) :
    TimingBlind fun s => if c s then f s else g s where
  cfg_eq s := by
    split
    · exact hf.cfg_eq s
    · exact hg.cfg_eq s
  withTiming_eq s n p := by
    by_cases h : c s
    · simp only [hc, if_pos h, hf.withTiming_eq]
    · simp only [hc, if_neg h, hg.withTiming_eq]

/-- An operation that always answers with a blind update. -/
theorem TimingBlind.answers {f : State → State} (hf : TimingBlind f) (s : State) :
    AnswersBlind (fun s => .next (f s)) s :=
  ⟨f s, rfl, hf.cfg_eq s, fun n p => congrArg _ (hf.withTiming_eq s n p)⟩

/-- An operation that hands over to a blind one, whatever the timing parameters are. -/
theorem AnswersBlind.of_eq {run run' : State → Result} {s s' : State} (h : AnswersBlind run' s')
    (hcfg : s'.cfg = s.cfg) (heq : run s = run' s')
    (htiming : ∀ n p, run (s.withTiming n p) = run' (s'.withTiming n p)) : AnswersBlind run s := by
  obtain ⟨t, ht, hc, hw⟩ := h
  exact ⟨t, heq.trans ht, hc.trans hcfg, fun n p => (htiming n p).trans (hw n p)⟩

/-! The named updates. -/

theorem timingBlind_id : TimingBlind fun s => s := ⟨fun _ => rfl, fun _ _ _ => rfl⟩

theorem timingBlind_takeInput : TimingBlind takeInput := ⟨fun _ => rfl, fun _ _ _ => rfl⟩

theorem timingBlind_advanceSequencer : TimingBlind advanceSequencer :=
  .ite (fun _ _ _ => .rfl) ⟨fun _ => rfl, fun _ _ _ => rfl⟩ ⟨fun _ => rfl, fun _ _ _ => rfl⟩

theorem timingBlind_commitAttempt : TimingBlind commitAttempt :=
  .ite (fun _ _ _ => .rfl) ⟨fun _ => rfl, fun _ _ _ => rfl⟩ timingBlind_id

/-- No step of a tick looks at the timing parameters. -/
theorem timingBlind_tickBody : TimingBlind tickBody :=
  timingBlind_commitAttempt.comp (timingBlind_advanceSequencer.comp ⟨fun _ => rfl, fun _ _ _ => rfl⟩)

theorem timingBlind_expireOverlay : TimingBlind expireOverlay :=
  .ite (fun _ _ _ => .rfl) ⟨fun _ => rfl, fun _ _ _ => rfl⟩ timingBlind_id

theorem timingBlind_redrawStatic : TimingBlind redrawStatic :=
  .ite (fun _ _ _ => .rfl) ⟨fun _ => rfl, fun _ _ _ => rfl⟩ timingBlind_id

theorem timingBlind_redrawAnimation : TimingBlind redrawAnimation :=
  .ite (fun _ _ _ => .rfl) ⟨fun _ => rfl, fun _ _ _ => rfl⟩ ⟨fun _ => rfl, fun _ _ _ => rfl⟩

theorem timingBlind_redrawScrolling : TimingBlind redrawScrolling := ⟨fun _ => rfl, fun _ _ _ => rfl⟩

theorem timingBlind_redraw : TimingBlind redraw where
  cfg_eq s := by
    unfold redraw
    split
    · exact timingBlind_redrawAnimation.cfg_eq s
    · exact timingBlind_redrawScrolling.cfg_eq s
    · exact timingBlind_redrawStatic.cfg_eq s
  withTiming_eq s n p := by
    simp only [redraw, withTiming_host]
    split
    · exact timingBlind_redrawAnimation.withTiming_eq s n p
    · exact timingBlind_redrawScrolling.withTiming_eq s n p
    · exact timingBlind_redrawStatic.withTiming_eq s n p

theorem timingBlind_redrawIfDue : TimingBlind redrawIfDue :=
  .ite (fun _ _ _ => .rfl) (timingBlind_redraw.comp ⟨fun _ => rfl, fun _ _ _ => rfl⟩) timingBlind_id

theorem timingBlind_directorPoll : TimingBlind directorPoll := by
  have hredraw : TimingBlind fun s => if s.host.overlayActive then s else redrawIfDue s :=
    .ite (fun _ _ _ => .rfl) timingBlind_id timingBlind_redrawIfDue
  exact hredraw.comp timingBlind_expireOverlay

theorem timingBlind_mainLoop : TimingBlind mainLoop :=
  .ite (fun _ _ _ => .rfl) timingBlind_directorPoll timingBlind_id

theorem timingBlind_hostUpdate (op : MainOp) : TimingBlind (hostUpdate op) := by
  cases op <;> exact ⟨fun _ => rfl, fun _ _ _ => rfl⟩

/-! The operations, MainFlow's step, the inputs and the step. -/

/-- Every operation. Only a tick, and a payload byte that may be missing or unknown, branch. -/
theorem answersBlind_exec (i : Instr) (s : State) : AnswersBlind (exec i) s := by
  cases i with
  | tick => exact (timingBlind_tickBody.answers (enterTick s)).of_eq rfl rfl fun _ _ => rfl
  | setDisplay b => cases b <;> exact ⟨_, rfl, rfl, fun _ _ => rfl⟩
  | setScrollSpeed b => cases b <;> exact ⟨_, rfl, rfl, fun _ _ => rfl⟩
  | setDisplayMode b =>
    cases b with
    | none => exact ⟨_, rfl, rfl, fun _ _ => rfl⟩
    | some m =>
      cases hm : modeOfId m with
      | none => exact ⟨s, by simp [hm], rfl, fun _ _ => by simp [hm]⟩
      | some k =>
        have hsel : TimingBlind (selectMode k) := ⟨fun _ => rfl, fun _ _ _ => rfl⟩
        exact (hsel.answers s).of_eq rfl (by simp [hm]) fun _ _ => by simp [hm]
  | _ => exact ⟨_, rfl, rfl, fun _ _ => rfl⟩

theorem answersBlind_mainStep (s : State) : AnswersBlind mainStep s := by
  cases hp : s.host.pending with
  | nil => exact ⟨s, mainStep_idle hp, rfl, fun _ _ => mainStep_idle hp⟩
  | cons op rest =>
    cases hi : op.toInstr s.hpRdata with
    | some i =>
      exact (answersBlind_exec i { s with host.pending := rest }).of_eq rfl (mainStep_op hp hi)
        fun n p => mainStep_op (s := s.withTiming n p) hp hi
    | none =>
      exact ((timingBlind_hostUpdate op).answers { s with host.pending := rest }).of_eq rfl
        (mainStep_update hp hi) fun n p => mainStep_update (s := s.withTiming n p) hp hi

theorem answersBlind_runForm (f : Form) (s : State) : AnswersBlind (runForm f) s := by
  cases hd : decode s.cfg.geo f with
  | ok i => exact (answersBlind_exec i s).of_eq rfl (by simp [runForm, hd]) fun _ _ => by simp [runForm, hd]
  | error e => exact ⟨s, by simp [runForm, hd], rfl, fun _ _ => by simp [runForm, hd]⟩

theorem answersBlind_runCycle (we re : Bool) (addr : Addr) (data : Word) (s : State) :
    AnswersBlind (runCycle we re addr data) s := by
  unfold runCycle
  split
  · exact answersBlind_runForm _ s
  · exact timingBlind_id.answers s

/-- An input that waits for MainFlow. -/
theorem answersBlind_whenMainFree {run : State → Result} (hrun : ∀ s, AnswersBlind run s) (s : State) :
    AnswersBlind (whenMainFree run) s := by
  cases hp : s.host.pending with
  | nil =>
    exact (hrun (takeInput s)).of_eq rfl (by simp [whenMainFree, hp])
      fun n p => by simp [whenMainFree, hp, timingBlind_takeInput.withTiming_eq]
  | cons op rest =>
    exact (answersBlind_mainStep s).of_eq rfl (by simp [whenMainFree, hp]) fun _ _ => by simp [whenMainFree, hp]

theorem answersBlind_acceptInput (e : Input) (s : State) : AnswersBlind (acceptInput e) s := by
  cases e with
  | op f =>
    cases f with
    | word t => exact answersBlind_whenMainFree (answersBlind_runForm _) s
    | bus bytes => exact answersBlind_whenMainFree (answersBlind_runForm _) s
    | tickReq => exact (answersBlind_runForm .tickReq (requestTick (takeInput s))).of_eq rfl rfl fun _ _ => rfl
    | rst => exact (answersBlind_runForm .rst (takeInput s)).of_eq rfl rfl fun _ _ => rfl
  | cycle we re addr data => exact answersBlind_whenMainFree (answersBlind_runCycle we re addr data) s
  | loop => exact answersBlind_whenMainFree timingBlind_mainLoop.answers s
  | go => exact (answersBlind_mainStep (takeInput s)).of_eq rfl rfl fun _ _ => rfl
  | busRead => exact ⟨_, rfl, rfl, fun _ _ => rfl⟩
  | clock ms => exact ⟨_, rfl, rfl, fun _ _ => rfl⟩
  | aux level => exact ⟨_, rfl, rfl, fun _ _ => rfl⟩

/-- The operation a step hands over to depends only on the pending tick and the inputs, and is blind. -/
theorem exists_answersBlind_step (s : State) : ∃ run : State → Result, AnswersBlind run s ∧
    ∀ s', legalConfig s'.cfg = true → s'.tickPend = s.tickPend → s'.inputs = s.inputs → step s' = run s' := by
  cases hi : s.inputs with
  | nil =>
    cases hp : s.tickPend with
    | true => exact ⟨_, answersBlind_exec .tick s, fun s' hl hp' hi' => step_pending_tick hl hp' (by simp [hi'])⟩
    | false => exact ⟨_, answersBlind_mainStep s, fun s' hl hp' hi' => step_no_input hl hp' hi'⟩
  | cons e rest =>
    by_cases hr : e = .op .rst
    · subst hr
      exact ⟨fun s => exec .reset (takeInput s), ⟨_, rfl, rfl, fun _ _ => rfl⟩, fun s' hl _ hi' => step_rst hl hi'⟩
    · cases hp : s.tickPend with
      | true =>
        exact ⟨_, answersBlind_exec .tick s, fun s' hl hp' hi' => step_pending_tick hl hp' (by simp [hi', hr])⟩
      | false => exact ⟨_, answersBlind_acceptInput e s, fun s' hl hp' hi' => step_input hl hp' hi'⟩

/-- Other legal timing parameters leave the configuration legal. -/
theorem legalConfig_withTiming {s : State} {n p : Nat} (hn : n ≤ 3) (hp : 0 < p) (h : legalConfig s.cfg = true) :
    legalConfig (s.withTiming n p).cfg = true := by
  simp_all [legalConfig]

/-- A step that answers has a legal configuration. -/
theorem legalConfig_of_step_next {s t : State} (h : step s = .next t) : legalConfig s.cfg = true := by
  by_contra hl
  rw [step_illegal (by simpa using hl)] at h
  cases h

/-- No step changes the configuration (00_scope R8, 70_reset R294). -/
theorem step_cfg {s t : State} (h : step s = .next t) : t.cfg = s.cfg := by
  obtain ⟨run, ⟨u, hu, hcfg, -⟩, hstep⟩ := exists_answersBlind_step s
  rw [hstep s (legalConfig_of_step_next h) rfl rfl, hu] at h
  cases h
  exact hcfg

/-- No step looks at legal timing parameters (10_state R43). -/
theorem step_withTiming {s t : State} {n p : Nat} (hn : n ≤ 3) (hp : 0 < p) (h : step s = .next t) :
    step (s.withTiming n p) = .next (t.withTiming n p) := by
  have hl := legalConfig_of_step_next h
  obtain ⟨run, ⟨u, hu, -, htiming⟩, hstep⟩ := exists_answersBlind_step s
  rw [hstep s hl rfl rfl, hu] at h
  cases h
  exact (hstep _ (legalConfig_withTiming hn hp hl) rfl rfl).trans (htiming n p)

/-! A request after a tick. -/

/-- A host-port word at the head of the inputs, with MainFlow free, is its operation. -/
theorem step_word {s : State} {w : Trans} {rest : List Input} (h : legalConfig s.cfg = true)
    (hp : s.tickPend = false) (hf : s.host.pending = []) (hi : s.inputs = .op (.word w) :: rest) :
    step s = exec (decodeWord s.cfg.geo w) { s with inputs := rest } := by
  rw [step_input h hp hi]
  simp [acceptInput, whenMainFree, hf, runForm, decode, takeInput, hi]

/-- A tick does not look at the inputs to come. -/
theorem tickBody_inputs (s : State) (l : List Input) :
    tickBody { s with inputs := l } = { tickBody s with inputs := l } := by
  simp only [tickBody_eq, copies, advanceSequencer_eq]
  rfl

/-- `WR_COMMIT 1` sets the request and changes nothing else (40 R124). -/
theorem requestCommit_one (s : State) : requestCommit 1#16 s = { s with creq := true } := by
  simp [requestCommit, dataBit0]

/-- A request that is seen late (10_state R43, 42_commit R179): the tick, then `WR_COMMIT`. -/
theorem runSteps_tick_wrCommit {s : State} {rest : List Input} (hl : legalConfig s.cfg = true)
    (hp : s.tickPend = false) (hf : s.host.pending = [])
    (hi : s.inputs = tickInput :: .op (encode (.wrCommit 1#16)) :: rest) :
    runSteps 2 s = .next { tickBody { s with inputs := rest } with creq := true } := by
  have htick := step_tickReq hl hp hi
  have hcommit : step (tickBody { s with inputs := .op (encode (.wrCommit 1#16)) :: rest }) =
      .next { tickBody { s with inputs := rest } with creq := true } := by
    rw [tickBody_inputs s (_ :: rest), tickBody_inputs s rest, step_word (by simpa [tickBody_eq] using hl)
      (by simpa [tickBody_eq] using hp) (by simpa [tickBody_eq] using hf) rfl]
    simp [decodeWrite, requestCommit_one]
  rw [runSteps_next htick, runSteps_one hcommit]

/-- Settles O16: every operation a step can hand over to is blind to the timing parameters, and a request after a tick is
two steps of which the second is `WR_COMMIT`. -/
theorem configurationIsFixedAndSynchronizerUnseen : Obligations.ConfigurationIsFixedAndSynchronizerUnseen := by
  refine ⟨fun s t => step_cfg, fun s t n p hn hp => step_withTiming hn hp, fun s t rest hinv hfree hinputs htick => ?_⟩
  have hentry : enterTick { s with inputs := rest } = { s with inputs := rest } := by
    simp [enterTick, hinv.no_pending_tick]
  rw [exec_tick, hentry] at htick
  cases htick
  exact runSteps_tick_wrCommit hinv.legal hinv.no_pending_tick hfree hinputs

end Sys2Proof.Machine

/-! Proofs of 10_state: what a step can do, the invariant it keeps, and the scan that the ticks drive. -/

namespace Sys2Proof.Machine

/-! Legal configurations. -/

/-- The ranges that a legal configuration puts on what power-on and the operations write (00_scope R8, R9). -/
theorem ranges_of_legalConfig {c : Config} (h : legalConfig c = true) :
    c.scrollInit < c.sw ∧ c.host.intervalMin ≤ c.host.intervalInit ∧ c.host.intervalInit ≤ c.host.intervalMax ∧
      c.host.msgInit.length ≤ c.host.msgCap := by
  simp only [legalConfig, legalHost, Bool.and_eq_true, decide_eq_true_eq] at h
  tauto

/-! The row operations of a routine name rows of the surface (30_encoding R101). -/

/-- Every row step of the list names a row below `H`. -/
def RowsOk (g : Geometry) (ops : List MainOp) : Prop := ∀ op ∈ ops, op.rowOk g = true

theorem rowsOk_append {g : Geometry} {l m : List MainOp} : RowsOk g (l ++ m) ↔ RowsOk g l ∧ RowsOk g m := by
  simp [RowsOk, or_imp, forall_and]

theorem rowsOk_flatMap {α : Type} {g : Geometry} {l : List α} {f : α → List MainOp}
    (h : ∀ a ∈ l, RowsOk g (f a)) : RowsOk g (l.flatMap f) := by
  intro op hop
  obtain ⟨a, ha, hmem⟩ := List.mem_flatMap.mp hop
  exact h a ha op hmem

/-- A row of the surface keeps its number as a row operand. -/
theorem rowIx_lt {g : Geometry} {r : Nat} (h : r < g.h) : (rowIx r).toNat < g.h := by
  simpa [rowIx] using (Nat.mod_le r 16).trans_lt h

theorem rowsOk_setSrcOps (g : Geometry) (v : Bool) : RowsOk g (setSrcOps v) := by
  simp [RowsOk, setSrcOps, MainOp.rowOk]

theorem rowsOk_setDisplayOps (g : Geometry) (v : Bool) : RowsOk g (setDisplayOps v) := by
  simp [RowsOk, setDisplayOps, MainOp.rowOk]

theorem rowsOk_enterBaseOps (g : Geometry) (c : Config) (m : Mode) : RowsOk g (enterBaseOps c m) := by
  unfold enterBaseOps
  split
  · exact rowsOk_setSrcOps g true
  · simp [RowsOk]

theorem rowsOk_leaveBaseOps (g : Geometry) (c : Config) (m : Mode) : RowsOk g (leaveBaseOps c m) := by
  unfold leaveBaseOps
  split
  · exact rowsOk_setSrcOps g false
  · simp [RowsOk]

theorem rowsOk_clearStageOps (g : Geometry) : RowsOk g (clearStageOps g) := by
  simp only [RowsOk, clearStageOps, List.forall_mem_map, List.mem_range]
  exact fun r hr => decide_eq_true (rowIx_lt hr)

theorem rowsOk_paintAnimOps (g : Geometry) : RowsOk g (paintAnimOps g) :=
  rowsOk_flatMap fun r hr => by
    simpa [RowsOk, MainOp.rowOk] using rowIx_lt (List.mem_range.mp hr)

/-- A plotted pixel is inside the surface, so its row is. -/
theorem rowsOk_plotOps (g : Geometry) (c : Bool) (p : Int × Int) : RowsOk g (plotOps g c p) := by
  unfold plotOps
  split
  · next hp =>
    have hrow : (rowIx p.2.toNat).toNat < g.h := rowIx_lt (by omega)
    cases c <;> simpa [RowsOk, MainOp.rowOk] using hrow
  · simp [RowsOk]

theorem rowsOk_paintTextOps (c : Config) (x y : Int) (text : List Byte) : RowsOk c.geo (paintTextOps c x y text) := by
  simp only [paintTextOps, drawTextOps, rowsOk_append]
  exact ⟨⟨rowsOk_clearStageOps _, rowsOk_flatMap fun p _ => rowsOk_plotOps _ _ p⟩, by simp [RowsOk, MainOp.rowOk]⟩

/-! The block's operations keep the invariant. -/

theorem inv_setRdata {s : State} (h : s.Inv) (v : Word) : (setRdata v s).Inv := { h with }

theorem inv_requestCommit {s : State} (h : s.Inv) (d : Word) : (requestCommit d s).Inv := { h with }

theorem inv_setStageRow {s : State} (h : s.Inv) (r : Nat) (d : Word) : (setStageRow r d s).Inv :=
  have hform := setStageRow_form r d s ⟨h.stage_length, h.stage_fits⟩
  { h with stage_length := hform.1, stage_fits := hform.2 }

theorem inv_writeCtrlFlags {s : State} (h : s.Inv) (d : Word) : (writeCtrlFlags d s).Inv :=
  have hsrc (hoff : s.cfg.hasDirectAnim = false) : (writeCtrlFlags d s).src = false := by
    rw [writeCtrlFlags_src, hoff, Bool.false_and]
  { h with src_off := hsrc }

theorem inv_advanceIndex {s : State} (h : s.Inv) : (advanceIndex s).Inv :=
  { h with scroll_lt := Nat.mod_lt _ (Nat.zero_lt_of_lt h.scroll_lt) }

/-- What the codes put into the chain has `2W` bits. -/
theorem chainOf_lt {g : Geometry} {d s : Word} (hd : d.toNat < 2 ^ g.w) (hs : s.toNat < 2 ^ g.w) :
    (chainOf g d s).toNat < 2 ^ (2 * g.w) :=
  toNat_lt_of_getLsbD _ fun i hi => by
    rw [chainOf_getLsbD g d s hs, if_neg (by omega), getLsbD_of_toNat_lt d hd (by omega), Bool.and_false]

theorem inv_advanceSequencer {s : State} (h : s.Inv) : (advanceSequencer s).Inv := by
  rw [advanceSequencer_eq]
  exact { h with
    row_lt := by
      split
      · exact Nat.mod_lt _ (w_pos _)
      · exact h.row_lt
    blank_le := by
      split
      · exact le_rfl
      · exact (Nat.sub_le _ 1).trans h.blank_le }

theorem inv_presentRow {s : State} (h : s.Inv) : (presentRow s).Inv := by
  have hchain := chainOf_lt (dataCode_lt s) (selectCode_lt s)
  rw [presentRow_eq]
  exact { h with sr_fits := hchain, q_fits := hchain, sclk_low := rfl, latch_high := rfl }

theorem inv_commitAttempt {s : State} (h : s.Inv) : (commitAttempt s).Inv := by
  unfold commitAttempt
  split
  · exact { h with active_length := h.stage_length, active_fits := h.stage_fits }
  · exact h

theorem inv_tickBody {s : State} (h : s.Inv) : (tickBody s).Inv :=
  inv_commitAttempt (inv_advanceSequencer (inv_presentRow h))

theorem inv_powerOn {c : Config} (h : legalConfig c = true) : (powerOn c).Inv := by
  obtain ⟨hscroll, hmin, hmax, hmsg⟩ := ranges_of_legalConfig h
  have hform := powerOn_form c
  exact {
    legal := h
    stage_length := hform.1
    stage_fits := hform.2
    active_length := hform.1
    active_fits := hform.2
    row_lt := w_pos c.geo
    blank_le := le_rfl
    src_off := fun _ => rfl
    scroll_lt := hscroll
    no_pending_tick := rfl
    sr_fits := Nat.two_pow_pos _
    q_fits := Nat.two_pow_pos _
    sclk_low := rfl
    latch_high := rfl
    msg_text_le := hmsg
    msg_width := rfl
    cursor_ge := by simp only [powerOn, powerOnHost]; omega
    cursor_le := le_rfl
    overlay_text_le := Nat.zero_le _
    interval_ge := hmin
    interval_le := hmax
    pending_rows := rowsOk_enterBaseOps _ _ _ }

theorem inv_resetState {s : State} (h : legalConfig s.cfg = true) : (resetState s).Inv :=
  { inv_powerOn h with sr_fits := and_chainOnes_lt _ _, q_fits := and_chainOnes_lt _ _ }

/-! The updates of the host environment keep the invariant. -/

theorem inv_queueOps {s : State} {ops : List MainOp} (h : s.Inv) (hops : RowsOk s.cfg.geo ops) :
    (queueOps ops s).Inv :=
  { h with pending_rows := rowsOk_append.mpr ⟨h.pending_rows, hops⟩ }

theorem capText_length_le (c : Config) (text : List Byte) : (capText c text).length ≤ c.host.msgCap :=
  List.length_take_le _ _

theorem inv_replaceMessage {s : State} (h : s.Inv) (text : List Byte) : (replaceMessage text s).Inv :=
  { h with
    msg_text_le := capText_length_le _ _
    msg_width := rfl
    cursor_ge := by simp only [replaceMessage]; omega
    cursor_le := le_rfl }

/-- A speed byte gives an interval of the range (44_bus_commands R203). -/
theorem speedInterval_mem {c : Config} (h : c.host.intervalMin ≤ c.host.intervalMax) (v : Byte) :
    c.host.intervalMin ≤ speedInterval c v ∧ speedInterval c v ≤ c.host.intervalMax := by
  have hshare : min v.toNat 100 * (c.host.intervalMax - c.host.intervalMin) / 100 ≤
      c.host.intervalMax - c.host.intervalMin :=
    Nat.div_le_of_le_mul (Nat.mul_le_mul_right _ (Nat.min_le_right _ _))
  unfold speedInterval
  omega

theorem inv_setInterval {s : State} (h : s.Inv) (v : Byte) :
    ({ s with host.intervalMs := speedInterval s.cfg v } : State).Inv :=
  have hrange := speedInterval_mem (h.interval_ge.trans h.interval_le) v
  { h with interval_ge := hrange.1, interval_le := hrange.2 }

theorem inv_selectMode {s : State} (h : s.Inv) (m : Mode) : (selectMode m s).Inv := by
  refine inv_queueOps { h with } ?_
  split
  · simp [RowsOk]
  · exact rowsOk_append.mpr ⟨rowsOk_leaveBaseOps _ _ _, rowsOk_enterBaseOps _ _ _⟩

theorem inv_triggerOverlay {s : State} (h : s.Inv) (text : List Byte) : (triggerOverlay text s).Inv := by
  refine inv_queueOps { h with overlay_text_le := capText_length_le _ _ } ?_
  simp only [rowsOk_append]
  exact ⟨⟨rowsOk_leaveBaseOps _ _ _, rowsOk_paintTextOps _ _ _ _⟩, by simp [RowsOk, MainOp.rowOk]⟩

theorem inv_hostUpdate {s : State} (h : s.Inv) (op : MainOp) : (hostUpdate op s).Inv := by
  unfold hostUpdate
  split
  · exact { h with }
  · exact { h with }
  · exact h

/-! The main loop keeps the invariant. -/

/-- The scroller stays inside its cycle `W, W-1, ..., -width` (45_host_producers R228). -/
theorem scrollTick_cursor_mem {w : Nat} {m : Message} (hle : m.cursor ≤ w) :
    -(m.width : Int) ≤ (scrollTick w m).cursor ∧ (scrollTick w m).cursor ≤ w := by
  unfold scrollTick
  split <;> dsimp only <;> omega

/-- The scroller moves the cursor and nothing else. -/
@[simp] theorem scrollTick_text (w : Nat) (m : Message) : (scrollTick w m).text = m.text := by
  unfold scrollTick
  split <;> rfl

@[simp] theorem scrollTick_width (w : Nat) (m : Message) : (scrollTick w m).width = m.width := by
  unfold scrollTick
  split <;> rfl

theorem inv_redrawScrolling {s : State} (h : s.Inv) : (redrawScrolling s).Inv := by
  have hcursor := scrollTick_cursor_mem h.cursor_le
  refine inv_queueOps { h with
    msg_text_le := ?_, msg_width := ?_, cursor_ge := ?_, cursor_le := hcursor.2 } (rowsOk_paintTextOps _ _ _ _)
  · simpa using h.msg_text_le
  · simpa using h.msg_width
  · simpa using hcursor.1

theorem inv_redrawStatic {s : State} (h : s.Inv) : (redrawStatic s).Inv := by
  unfold redrawStatic
  split
  · exact inv_queueOps h (rowsOk_append.mpr ⟨rowsOk_paintTextOps _ _ _ _, by simp [RowsOk, MainOp.rowOk]⟩)
  · exact h

theorem inv_redrawAnimation {s : State} (h : s.Inv) : (redrawAnimation s).Inv := by
  have hadvance : RowsOk s.cfg.geo [.advance] := by simp [RowsOk, MainOp.rowOk]
  have hcommit : RowsOk s.cfg.geo [.commit] := by simp [RowsOk, MainOp.rowOk]
  unfold redrawAnimation
  split
  · exact inv_queueOps h hadvance
  · exact inv_queueOps h
      (rowsOk_append.mpr ⟨rowsOk_append.mpr ⟨hadvance, rowsOk_paintAnimOps _⟩, hcommit⟩)

theorem inv_redraw {s : State} (h : s.Inv) : (redraw s).Inv := by
  unfold redraw
  split
  · exact inv_redrawAnimation h
  · exact inv_redrawScrolling h
  · exact inv_redrawStatic h

theorem inv_redrawIfDue {s : State} (h : s.Inv) : (redrawIfDue s).Inv := by
  unfold redrawIfDue
  split
  · exact inv_redraw { h with }
  · exact h

theorem inv_expireOverlay {s : State} (h : s.Inv) : (expireOverlay s).Inv := by
  unfold expireOverlay
  split
  · exact inv_queueOps { h with } (rowsOk_enterBaseOps _ _ _)
  · exact h

theorem inv_mainLoop {s : State} (h : s.Inv) : (mainLoop s).Inv := by
  have hexpire := inv_expireOverlay h
  unfold mainLoop directorPoll
  split
  · dsimp only
    split
    · exact hexpire
    · exact inv_redrawIfDue hexpire
  · exact h

/-- Every operation keeps the invariant. -/
theorem inv_exec {s t : State} {i : Instr} (h : s.Inv) (ht : exec i s = .next t) : t.Inv := by
  cases i with
  | wrCtrl d => cases ht; exact inv_writeCtrlFlags h d
  | rdCtrl => cases ht; exact inv_setRdata h _
  | wrCommit d => cases ht; exact inv_requestCommit h d
  | rdCommit => cases ht; exact inv_setRdata h _
  | wrScroll d => cases ht; exact inv_advanceIndex h
  | rdScroll => cases ht; exact inv_setRdata h _
  | wrStage r d => cases ht; exact inv_setStageRow h _ d
  | rdStage r => cases ht; exact inv_setRdata h _
  | rdVrow r => cases ht; exact inv_setRdata h _
  | wrIgnored a d => cases ht; exact h
  | rdZero a => cases ht; exact inv_setRdata h _
  | tick => cases ht; exact inv_tickBody { h with no_pending_tick := rfl }
  | reset => cases ht; exact inv_resetState h.legal
  | setDisplay b =>
    cases b with
    | none => cases ht; exact h
    | some v => cases ht; exact inv_queueOps h (rowsOk_setDisplayOps _ _)
  | setMessage text => cases ht; exact inv_replaceMessage h text
  | setScrollSpeed b =>
    cases b with
    | none => cases ht; exact h
    | some v => cases ht; exact inv_setInterval h v
  | setDisplayMode b =>
    cases b with
    | none => cases ht; exact h
    | some v =>
      rw [exec_setDisplayMode_some] at ht
      split at ht
      · cases ht; exact inv_selectMode h _
      · cases ht; exact h
  | showTempMessage text => cases ht; exact inv_triggerOverlay h text
  | unknownCommand op p => cases ht; exact h

/-! What a step can do. -/

/-- The operations of form E: the two events, which are not MainFlow's. -/
def isEvent : Instr → Bool
  | .tick => true
  | .reset => true
  | _ => false

/-- The state as an operation of MainFlow finds it: the inputs still to come are `l`, its routine is cut down to `p`. -/
def State.withQueues (s : State) (l : List Input) (p : List MainOp) : State :=
  { s with inputs := l, host.pending := p }

/-- Everything a step of a legal machine can do (20_memory R71). -/
inductive StepCase (s : State) : State → Prop where
  /-- `rst`, before everything else -/
  | reset (hrst : s.inputs.head? = some (.op .rst)) : StepCase s (resetState (takeInput s))
  /-- a tick, pending or just requested -/
  | tick (l : List Input) : StepCase s (tickBody { s with inputs := l, tickPend := false })
  /-- an operation that MainFlow issues or that arrives for it -/
  | operation (i : Instr) (l : List Input) (p : List MainOp) {t : State} (hi : isEvent i = false)
      (hp : p <:+ s.host.pending) (ht : exec i (s.withQueues l p) = .next t) : StepCase s t
  /-- a step of MainFlow on a variable of its own -/
  | update (op : MainOp) (l : List Input) (p : List MainOp) (hp : p <:+ s.host.pending) :
      StepCase s (hostUpdate op (s.withQueues l p))
  /-- an iteration of the main loop -/
  | loop (l : List Input) : StepCase s (mainLoop { s with inputs := l })
  /-- an event of the environment that reaches neither the block nor MainFlow, or nothing at all -/
  | environment (l : List Input) (ms : Nat) (pin : Bool) (reply : Byte) :
      StepCase s { s with inputs := l, nowMs := ms, auxPin := pin, busReply := reply }

theorem isEvent_decodeWord (g : Geometry) (w : Trans) : isEvent (decodeWord g w) = false := by
  unfold decodeWord decodeWrite decodeRead
  split_ifs <;> rfl

theorem isEvent_of_decodeBus {bytes : List Byte} {i : Instr} (h : decodeBus bytes = .ok i) : isEvent i = false := by
  unfold decodeBus at h
  split at h
  · cases h
  · split_ifs at h <;> cases h <;> rfl

theorem isEvent_of_toInstr {op : MainOp} {v : Word} {i : Instr} (h : op.toInstr v = some i) : isEvent i = false := by
  cases op <;> cases h <;> rfl

theorem stepCase_mainStep {s t : State} (l : List Input) (h : mainStep { s with inputs := l } = .next t) :
    StepCase s t := by
  cases hp : s.host.pending with
  | nil =>
    rw [mainStep_idle (s := { s with inputs := l }) hp] at h
    cases h
    exact .environment l s.nowMs s.auxPin s.busReply
  | cons op rest =>
    have hsuffix : rest <:+ s.host.pending := hp ▸ List.suffix_cons op rest
    cases hi : op.toInstr s.hpRdata with
    | some i =>
      rw [mainStep_op (s := { s with inputs := l }) hp hi] at h
      exact .operation i l rest (isEvent_of_toInstr hi) hsuffix h
    | none =>
      rw [mainStep_update (s := { s with inputs := l }) hp hi] at h
      cases h
      exact .update op l rest hsuffix

/-- A form that is not an event. -/
theorem stepCase_runForm {s t : State} {f : Form} (l : List Input)
    (hf : ∀ i, decode s.cfg.geo f = .ok i → isEvent i = false) (h : runForm f { s with inputs := l } = .next t) :
    StepCase s t := by
  unfold runForm at h
  split at h
  · next i hd => exact .operation i l s.host.pending (hf i hd) List.suffix_rfl h
  · cases h
    exact .environment l s.nowMs s.auxPin s.busReply

theorem stepCase_word {s t : State} {w : Trans} (l : List Input)
    (h : runForm (.word w) { s with inputs := l } = .next t) : StepCase s t :=
  stepCase_runForm l (fun i hd => by cases hd; exact isEvent_decodeWord _ w) h

theorem stepCase_bus {s t : State} {bytes : List Byte} (l : List Input)
    (h : runForm (.bus bytes) { s with inputs := l } = .next t) : StepCase s t :=
  stepCase_runForm (f := .bus bytes) l (fun _ hd => isEvent_of_decodeBus hd) h

theorem stepCase_runCycle {s t : State} {we re : Bool} {a : Addr} {d : Word} (l : List Input)
    (h : runCycle we re a d { s with inputs := l } = .next t) : StepCase s t := by
  unfold runCycle at h
  split at h
  · exact stepCase_word l h
  · cases h
    exact .environment l s.nowMs s.auxPin s.busReply

/-- An input that waits for MainFlow. -/
theorem stepCase_whenMainFree {s t : State} {run : State → Result}
    (hrun : run (takeInput s) = .next t → StepCase s t) (h : whenMainFree run s = .next t) : StepCase s t := by
  unfold whenMainFree at h
  split at h
  · exact hrun h
  · exact stepCase_mainStep s.inputs h

theorem stepCase_acceptInput {s t : State} {e : Input} (he : e ≠ .op .rst) (h : acceptInput e s = .next t) :
    StepCase s t := by
  cases e with
  | op f =>
    cases f with
    | word w => exact stepCase_whenMainFree (stepCase_word _) h
    | bus bytes => exact stepCase_whenMainFree (stepCase_bus _) h
    | tickReq => cases h; exact .tick s.inputs.tail
    | rst => exact absurd rfl he
  | cycle we re a d => exact stepCase_whenMainFree (stepCase_runCycle _) h
  | busRead => cases h; exact .environment s.inputs.tail s.nowMs s.auxPin (statusByte s.auxPin)
  | loop =>
    refine stepCase_whenMainFree (run := fun u => .next (mainLoop u)) (fun hloop => ?_) h
    cases hloop
    exact .loop s.inputs.tail
  | go => exact stepCase_mainStep s.inputs.tail h
  | clock ms => cases h; exact .environment s.inputs.tail ms s.auxPin s.busReply
  | aux level => cases h; exact .environment s.inputs.tail s.nowMs level s.busReply

/-- A step that answers does one of the things of `StepCase`, from every state. -/
theorem step_cases {s t : State} (h : step s = .next t) : StepCase s t := by
  have hl := legalConfig_of_step_next h
  by_cases hrst : s.inputs.head? = some (.op .rst)
  · obtain ⟨rest, hi⟩ := List.head?_eq_some_iff.mp hrst
    rw [step_rst hl hi] at h
    cases h
    exact .reset hrst
  · cases hp : s.tickPend with
    | true =>
      rw [step_pending_tick hl hp hrst] at h
      cases h
      exact .tick s.inputs
    | false =>
      cases hi : s.inputs with
      | nil =>
        rw [step_no_input hl hp hi] at h
        exact stepCase_mainStep s.inputs h
      | cons e rest =>
        rw [step_input hl hp hi] at h
        exact stepCase_acceptInput (by simpa [hi] using hrst) h

/-! The invariant along the steps. -/

/-- What is left of MainFlow's routine is part of it. -/
theorem inv_withQueues {s : State} {p : List MainOp} (h : s.Inv) (l : List Input) (hp : p <:+ s.host.pending) :
    (s.withQueues l p).Inv :=
  { h with pending_rows := fun op hop => h.pending_rows op (hp.subset hop) }

/-- Settles O15: each thing that a step can do keeps the invariant. -/
theorem stepKeepsTheInvariant : Obligations.StepKeepsTheInvariant := by
  intro s t h hstep
  cases step_cases hstep with
  | reset => exact inv_resetState h.legal
  | tick l => exact inv_tickBody { h with no_pending_tick := rfl }
  | operation i l p _ hp ht => exact inv_exec (inv_withQueues h l hp) ht
  | update op l p hp => exact inv_hostUpdate (inv_withQueues h l hp) op
  | loop l => exact inv_mainLoop { h with }
  | environment l ms pin reply => exact { h with }

/-- Settles O14: power-on of a legal configuration meets the invariant, and `State.reset` is power-on of the default. -/
theorem powerOnMeetsTheInvariant : Obligations.PowerOnMeetsTheInvariant := by
  have hdefault : legalConfig Config.default = true := by decide
  exact ⟨powerOn_default ▸ inv_powerOn hdefault, fun c hc => inv_powerOn hc⟩

/-- Settles O44: the reset state is power-on with `SR` and `Q` masked to the chain. -/
theorem resetGivesEveryResetValue : Obligations.ResetGivesEveryResetValue := by
  intro s
  have hzero : ∀ v ∈ List.replicate s.cfg.geo.h (0 : Word), v = 0 := fun v hv => List.eq_of_mem_replicate hv
  have hpending (hd : s.cfg.host.directAnim = false) : (resetState s).host.pending = [] := by
    simp [resetState, powerOn, powerOnHost, enterBaseOps, hd]
  exact ⟨resetState s, rfl, rfl, List.length_replicate, hzero, List.length_replicate, hzero, rfl, rfl, rfl, rfl, rfl,
    rfl, rfl, rfl, rfl, rfl, rfl, rfl, and_chainOnes_lt _ _, and_chainOnes_lt _ _, rfl, rfl, rfl, rfl, rfl, rfl, rfl,
    rfl, hpending, rfl, rfl, rfl, rfl⟩

/-! Only a tick or reset reaches the scan state. -/

/-- The scan state is the same: `ACTIVE`, the position, the panel side; and a commit request may be set, not cleared. -/
structure ScanKept (s t : State) : Prop where
  active : t.active = s.active
  row : t.row = s.row
  blank : t.blank = s.blank
  panel : t.panel = s.panel
  creq : s.creq = true → t.creq = true

/-- An update of the host environment. -/
theorem scanKept_host (s : State) (host : HostEnv) : ScanKept s { s with host := host } := ⟨rfl, rfl, rfl, rfl, id⟩

/-- A redraw updates the host environment and nothing else. -/
theorem redraw_eq_host (s : State) : redraw s = { s with host := (redraw s).host } := by
  unfold redraw
  split
  · unfold redrawAnimation
    split <;> rfl
  · rfl
  · unfold redrawStatic
    split <;> rfl

theorem expireOverlay_eq_host (s : State) : expireOverlay s = { s with host := (expireOverlay s).host } := by
  unfold expireOverlay
  split <;> rfl

theorem redrawIfDue_eq_host (s : State) : redrawIfDue s = { s with host := (redrawIfDue s).host } := by
  unfold redrawIfDue
  split
  · exact redraw_eq_host _
  · rfl

/-- The main loop updates the host environment and nothing else: the block changes by the operations it queues. -/
theorem mainLoop_eq_host (s : State) : mainLoop s = { s with host := (mainLoop s).host } := by
  unfold mainLoop directorPoll
  split
  · rw [expireOverlay_eq_host]
    dsimp only
    split
    · rfl
    · rw [redrawIfDue_eq_host]
  · rfl

theorem scanKept_hostUpdate (s : State) (op : MainOp) : ScanKept s (hostUpdate op s) := by
  unfold hostUpdate
  split <;> exact ⟨rfl, rfl, rfl, rfl, id⟩

/-- No operation but the two events reaches the scan state. -/
theorem scanKept_exec {s t : State} {i : Instr} (hi : isEvent i = false) (ht : exec i s = .next t) :
    ScanKept s t := by
  cases i with
  | tick => cases hi
  | reset => cases hi
  | wrCommit d => cases ht; exact ⟨rfl, rfl, rfl, rfl, fun hc => by simp [hc]⟩
  | setDisplay b => cases b <;> cases ht <;> exact scanKept_host s _
  | setScrollSpeed b => cases b <;> cases ht <;> exact scanKept_host s _
  | setDisplayMode b =>
    cases b with
    | none => cases ht; exact scanKept_host s _
    | some v =>
      rw [exec_setDisplayMode_some] at ht
      split at ht <;> cases ht <;> exact scanKept_host s _
  | _ => cases ht; exact ⟨rfl, rfl, rfl, rfl, id⟩

/-- A step is reset, a tick, or leaves the scan state (10_state R23). -/
theorem step_scan_cases {s t : State} (h : step s = .next t) :
    (s.inputs.head? = some (.op .rst) ∧ t = resetState (takeInput s)) ∨
      (∃ l, t = tickBody { s with inputs := l, tickPend := false }) ∨ ScanKept s t := by
  cases step_cases h with
  | reset hrst => exact .inl ⟨hrst, rfl⟩
  | tick l => exact .inr (.inl ⟨l, rfl⟩)
  | operation i l p hi _ ht => exact .inr (.inr { scanKept_exec hi ht with })
  | update op l p => exact .inr (.inr { scanKept_hostUpdate (s.withQueues l p) op with })
  | loop l =>
    rw [mainLoop_eq_host]
    exact .inr (.inr ⟨rfl, rfl, rfl, rfl, id⟩)
  | environment => exact .inr (.inr ⟨rfl, rfl, rfl, rfl, id⟩)

/-- A tick keeps `ACTIVE`, or consumes a request at the safe instant and copies the whole of `STAGE` (42_commit R172). -/
theorem tickBody_active_cases (s : State) :
    (tickBody s).active = s.active ∨
      (s.creq = true ∧ (tickBody s).creq = false ∧ (tickBody s).active = s.stage ∧ (tickBody s).stage = s.stage ∧
        (tickBody s).row = 0 ∧ (tickBody s).blank = s.cfg.b) := by
  rw [tickBody_eq]
  cases hcopies : copies s with
  | false => exact .inl rfl
  | true =>
    simp only [copies, safeInstant, Bool.and_eq_true, beq_iff_eq, advanceSequencer_cfg] at hcopies
    obtain ⟨⟨hrow, hblank⟩, hcreq⟩ := hcopies
    exact .inr ⟨hcreq, rfl, rfl, rfl, hrow, hblank⟩

/-- Settles O39: outside reset only a tick reaches `ACTIVE`, and a tick that changes it copies. -/
theorem activeChangesOnlyByAWholeCopy : Obligations.ActiveChangesOnlyByAWholeCopy := by
  intro s t hstep
  rcases step_scan_cases hstep with ⟨hrst, rfl⟩ | ⟨l, rfl⟩ | hkept
  · exact .inr (.inr ⟨hrst, rfl⟩)
  · exact (tickBody_active_cases _).imp_right .inl
  · exact .inl hkept.active

/-! The positions of a pass. -/

/-- Every position is one of the `H * (B + 1)` of a pass. -/
theorem position_lt {s : State} (h : s.Inv) : position s < passLength s.cfg := by
  have hrow : (s.row + 1) * (s.cfg.b + 1) ≤ passLength s.cfg := Nat.mul_le_mul_right _ h.row_lt
  rw [Nat.succ_mul] at hrow
  unfold position
  omega

/-- A tick moves on by one position, and from the last one back to the first (10_state R26). -/
theorem position_tickBody {s : State} (h : s.Inv) :
    position (tickBody s) = (position s + 1) % passLength s.cfg := by
  have hblank := h.blank_le
  rcases Nat.eq_zero_or_pos s.blank with hzero | hpos
  · have hend : position s + 1 = (s.row + 1) * (s.cfg.b + 1) := by
      rw [Nat.succ_mul]
      simp [position, hzero, Nat.add_assoc]
    rw [hend, passLength, Nat.mul_mod_mul_right]
    simp [position, tickBody_eq, hzero]
  · have hnext : position (tickBody s) = position s + 1 := by
      simp only [position, tickBody_eq, advanceSequencer_row, advanceSequencer_blank, if_neg hpos.ne']
      omega
    rw [← hnext, Nat.mod_eq_of_lt]
    simpa [tickBody_eq] using position_lt (inv_tickBody h)

/-- Settles O36, by induction on the number of ticks. -/
theorem ticksGoRoundThePositions : Obligations.TicksGoRoundThePositions := by
  intro n
  induction n with
  | zero =>
    intro s rest h hinputs
    exact ⟨s, rfl, by simpa using hinputs, (Nat.mod_eq_of_lt (position_lt h)).symm, position_lt h⟩
  | succ n ih =>
    intro s rest h hinputs
    let u : State := { s with inputs := List.replicate n tickInput ++ rest }
    have hu : u.Inv := { h with }
    have htick : step s = .next (tickBody u) := step_tickReq h.legal h.no_pending_tick hinputs
    have hcfg : (tickBody u).cfg = s.cfg := by rw [tickBody_eq]
    obtain ⟨t, hrun, hrest, hpos, hlt⟩ := ih (tickBody u) rest (inv_tickBody hu) (by rw [tickBody_eq])
    rw [hcfg] at hpos hlt
    refine ⟨t, (runSteps_next htick).trans hrun, hrest, ?_, hlt⟩
    calc position t = (position (tickBody u) + n) % passLength s.cfg := hpos
      _ = ((position s + 1) % passLength s.cfg + n) % passLength s.cfg := by rw [position_tickBody hu]; rfl
      _ = (position s + (n + 1)) % passLength s.cfg := by rw [Nat.mod_add_mod, Nat.add_right_comm, Nat.add_assoc]

/-! What the panel shows. -/

/-- A tick is lit on the last position of a row, with the display enabled (41_refresh_tick R141). -/
theorem dark_eq_false_iff (s : State) : dark s = false ↔ s.dispEn = true ∧ s.blank = 0 := by
  simp [dark, and_comm]

/-- Bit `x` of the row-data code: unlit when dark, else the complement of the shown row (41_refresh_tick R143, R145). -/
theorem dataCode_getLsbD (s : State) (x : Nat) :
    (dataCode s).getLsbD x = (decide (x < s.cfg.geo.w) && (dark s || !(shownRow s).getLsbD x)) := by
  unfold dataCode
  split
  · next hdark => rw [ones_getLsbD (w_le_16 _), hdark, Bool.true_or, Bool.and_true]
  · next hlit => rw [compl_getLsbD (w_le_16 _), Bool.eq_false_of_not_eq_true hlit, Bool.false_or]

/-- Bit `y` of the row-select code: unselected when dark, else 0 for the row the tick stands at and no other
(41_refresh_tick R144, R145). -/
theorem selectCode_getLsbD (s : State) (y : Nat) :
    (selectCode s).getLsbD y = (decide (y < s.cfg.geo.w) && (dark s || decide (y ≠ s.row))) := by
  have hw := w_le_16 s.cfg.geo
  unfold selectCode
  split
  · next hdark => rw [ones_getLsbD hw, hdark, Bool.true_or, Bool.and_true]
  · next hlit =>
    rw [compl_getLsbD hw, Bool.eq_false_of_not_eq_true hlit, Bool.false_or, ← BitVec.twoPow_eq,
      BitVec.getLsbD_twoPow]
    by_cases hy : y < s.cfg.geo.w
    · have h16 : s.row = y → s.row < 16 := by omega
      by_cases hrow : y = s.row
      · simp [hrow, h16 hrow.symm]
      · simp [hrow, Ne.symm hrow]
    · simp [hy]

/-- What a tick latches is the two codes of the position it stood at (41_refresh_tick R147). -/
theorem qData_tickBody (s : State) : (tickBody s).panel.qData s.cfg.geo = dataCode s :=
  qData_chainOf _ _ _ (dataCode_lt s) (selectCode_lt s) _ (by rw [tickBody_eq, presentRow_eq])

theorem qSel_tickBody (s : State) : (tickBody s).panel.qSel s.cfg.geo = selectCode s :=
  qSel_chainOf _ _ _ (selectCode_lt s) _ (by rw [tickBody_eq, presentRow_eq])

/-- What the panel shows after a tick, from the two codes (10_state R41). -/
theorem lit_tickBody (s : State) (x y : Nat) :
    lit (tickBody s) x y = (s.dispEn && decide (x < s.cfg.geo.w) && decide (y < s.cfg.geo.h) &&
      !(selectCode s).getLsbD y && !(dataCode s).getLsbD x) := by
  have hcfg : (tickBody s).cfg = s.cfg := by rw [tickBody_eq]
  have hen : (tickBody s).dispEn = s.dispEn := by rw [tickBody_eq]
  simp only [lit, State.oeN, hcfg, hen, qData_tickBody, qSel_tickBody, Bool.not_not]

/-- Inside the panel a dark tick has both codes 1; a lit one has a select bit 0 at `ROW` only, and data bits 0 at the lit
pixels of the shown row. -/
theorem lit_tickBody_iff (s : State) (x y : Nat) :
    lit (tickBody s) x y = true ↔
      s.dispEn = true ∧ s.blank = 0 ∧ y = s.row ∧ x < s.cfg.geo.w ∧ y < s.cfg.geo.h ∧
        (shownRow s).getLsbD x = true := by
  have hlit := dark_eq_false_iff s
  rw [lit_tickBody, dataCode_getLsbD, selectCode_getLsbD]
  cases hdark : dark s with
  | true =>
    have hoff : ¬ (s.dispEn = true ∧ s.blank = 0) := by simp [← hlit, hdark]
    simp only [Bool.true_or, Bool.and_true, Bool.and_eq_true, decide_eq_true_eq, Bool.not_eq_true',
      decide_eq_false_iff_not]
    tauto
  | false =>
    obtain ⟨hon, hblank⟩ := hlit.mp hdark
    simp only [hon, hblank]
    grind

/-- Settles O35: the lit LEDs of a tick, which are those of the state the tick entered with. -/
theorem panelShowsTheScannedRow : Obligations.PanelShowsTheScannedRow :=
  fun s x y => ⟨tickBody (enterTick s), rfl, lit_tickBody_iff (enterTick s) x y⟩

end Sys2Proof.Machine

/-! Proofs of 20_memory: the register space as reads see it, one step and its operation, the drawing tables, and the
bounded service of a commit request. -/

namespace Sys2Proof.Machine

/-! A step and the operation at the head of the inputs. -/

/-- What arrives is the form alone: a word or a command with MainFlow free, or one of the two events, of which a pulse on
`tick_req` sets `TICK_PEND` first. -/
theorem acceptInput_form {s : State} {f : Form} {rest : List Input} (hp : s.tickPend = false)
    (hf : s.host.pending = [] ∨ f = .tickReq ∨ f = .rst) (hi : s.inputs = .op f :: rest) :
    acceptInput (.op f) s = runForm f { s with inputs := rest, tickPend := f == .tickReq } := by
  have htake : takeInput s = { s with inputs := rest, tickPend := false } := by simp [takeInput, hi, ← hp]
  cases f with
  | word w =>
    have hfree : s.host.pending = [] := by simpa using hf
    simp only [acceptInput, whenMainFree, hfree, htake]
    rfl
  | bus bytes =>
    have hfree : s.host.pending = [] := by simpa using hf
    simp only [acceptInput, whenMainFree, hfree, htake]
    rfl
  | tickReq =>
    simp only [acceptInput, requestTick, htake]
    rfl
  | rst =>
    simp only [acceptInput, htake]
    rfl

/-- A form that decodes runs its operation. -/
theorem runForm_ok {s : State} {f : Form} {i : Instr} (hd : decode s.cfg.geo f = .ok i) : runForm f s = exec i s := by
  simp [runForm, hd]

/-- A form at the head of the inputs, with MainFlow free or one of the two events, runs the operation it decodes to. -/
theorem step_form {s : State} {f : Form} {rest : List Input} {i : Instr} (h : legalConfig s.cfg = true)
    (hp : s.tickPend = false) (hf : s.host.pending = [] ∨ f = .tickReq ∨ f = .rst) (hi : s.inputs = .op f :: rest)
    (hd : decode s.cfg.geo f = .ok i) :
    step s = exec i { s with inputs := rest, tickPend := f == .tickReq } := by
  rw [step_input h hp hi, acceptInput_form hp hf hi]
  exact runForm_ok hd

/-- A table word is a word or a command, never an event (notes/assumptions/20). -/
theorem beq_tickReq_of_formOfTableWord {nbits w : Nat} {f : Form} (h : formOfTableWord nbits w = some f) :
    (f == .tickReq) = false := by
  unfold formOfTableWord at h
  split_ifs at h <;> cases h <;> rfl

/-- Settles O8: what the head of the inputs does, and what `withFetchWord` puts there. -/
theorem stepRunsTheDecodedOperation : Obligations.StepRunsTheDecodedOperation := by
  refine ⟨fun s f rest i hl hp hf hi hd => step_form hl hp hf hi hd, fun s nbits w f i hl hw hd => ?_⟩
  have hplaced : s.withFetchWord nbits w =
      { s with inputs := .op f :: s.inputs, tickPend := false, host.pending := [] } := by
    simp [State.withFetchWord, hw]
  calc step (s.withFetchWord nbits w)
    _ = exec i { s with tickPend := f == .tickReq, host.pending := [] } := by
      rw [hplaced]
      exact step_form hl rfl (.inl rfl) rfl hd
    _ = exec i { s with tickPend := false, host.pending := [] } := by rw [beq_tickReq_of_formOfTableWord hw]

/-! The read map of the register space. -/

theorem toNat_rowOf (a : Addr) : (rowOf a).toNat = a.toNat % 16 := by
  simp [rowOf, BitVec.extractLsb'_toNat]

/-- The decoder's test of a row window by bit fields is the map's, by the range of addresses (20_memory R62). -/
theorem rowWindow_eq_inWindow (g : Geometry) (page : RowIx) (a : Addr) :
    rowWindow g page a = inWindow g (16 * page.toNat) a := by
  have hw : g.h ≤ 16 := w_le_16 g
  have ha := a.isLt
  have hpage : a.extractLsb' 4 4 = page ↔ a.toNat / 16 = page.toNat := by
    rw [← BitVec.toNat_inj, BitVec.extractLsb'_toNat, Nat.shiftRight_eq_div_pow]
    omega
  rw [Bool.eq_iff_iff]
  simp only [rowWindow, inWindow, toNat_rowOf, Bool.and_eq_true, beq_iff_eq, decide_eq_true_eq, hpage]
  omega

/-- The row number of an address inside a window. -/
theorem toNat_rowOf_of_inWindow {g : Geometry} {page : RowIx} {a : Addr} (h : inWindow g (16 * page.toNat) a = true) :
    (rowOf a).toNat = a.toNat - 16 * page.toNat := by
  have hw : g.h ≤ 16 := w_le_16 g
  simp only [inWindow, Bool.and_eq_true, decide_eq_true_eq] at h
  rw [toNat_rowOf]
  omega

/-- The read operation of an address answers its value in the map, in every case of the decoder. -/
theorem exec_decodeRead (s : State) (a : Addr) :
    exec (decodeRead s.cfg.geo a) s = .next (setRdata (portRead s a) s) := by
  have hctrl : a = 0x00#8 ↔ a.toNat = 0 := BitVec.toNat_inj.symm
  have hcommit : a = 0x01#8 ↔ a.toNat = 1 := BitVec.toNat_inj.symm
  have hscroll : a = 0x02#8 ↔ a.toNat = 2 := BitVec.toNat_inj.symm
  have hstage : rowWindow s.cfg.geo 1#4 a = inWindow s.cfg.geo 0x10 a := rowWindow_eq_inWindow _ _ a
  have hvrow : rowWindow s.cfg.geo 2#4 a = inWindow s.cfg.geo 0x20 a := rowWindow_eq_inWindow _ _ a
  simp only [decodeRead, portRead, hctrl, hcommit, hscroll, hstage, hvrow]
  split_ifs with _ _ _ hin hin
  · exact exec_rdCtrl s
  · exact exec_rdCommit s
  · exact exec_rdScroll s
  · rw [exec_rdStage, toNat_rowOf_of_inWindow (page := 1#4) hin]
    rfl
  · rw [exec_rdVrow, toNat_rowOf_of_inWindow (page := 2#4) hin]
    rfl
  · exact exec_rdZero a s

/-- Settles O23: the read word of an address is its read operation, which answers the map's value. -/
theorem everyAddressReadsAsMapped : Obligations.EveryAddressReadsAsMapped := by
  intro s a data
  rw [decodeWord_read, exec_decodeRead]
  rfl

/-! Drawing. -/

theorem blobBit_of_lt {f : Font} {k : Nat} (h : k / 8 < f.blob.length) :
    blobBit f k = (f.blob.getD (k / 8) 0).getLsbD (7 - k % 8) := by
  simp [blobBit, h]

/-- The glyph of a code of the range. -/
theorem glyphOf_of_mem {f : Font} {c : Byte} (hfirst : f.first ≤ c.toNat) (hlast : c.toNat ≤ f.last) :
    glyphOf f c = f.glyphs[c.toNat - f.first]? := if_pos ⟨hfirst, hlast⟩

/-- A code outside the range has no glyph. -/
theorem glyphOf_of_not_mem {f : Font} {c : Byte} (h : c.toNat < f.first ∨ f.last < c.toNat) : glyphOf f c = none :=
  if_neg (by omega)

theorem mem_glyphRowPixels {f : Font} {g : Glyph} {x y px py : Int} {row : Nat} :
    (px, py) ∈ glyphRowPixels f g x y row ↔ ∃ col < g.width,
      blobBit f (g.bitOffset + row * g.width + col) = true ∧
      px = x + g.xOffset + col ∧ py = y + g.yOffset + row := by
  simp [glyphRowPixels, eq_comm (b := px), eq_comm (b := py)]

theorem length_glyphRowPixels_le (f : Font) (g : Glyph) (x y : Int) (row : Nat) :
    (glyphRowPixels f g x y row).length ≤ g.width := by
  simpa [glyphRowPixels] using List.length_filterMap_le _ (List.range g.width)

/-- A character plots the set bits of its glyph, each at its offset (45 R221). -/
theorem mem_charPixels {f : Font} {c : Byte} {g : Glyph} (hg : glyphOf f c = some g) {x y px py : Int} :
    (px, py) ∈ charPixels f x y c ↔ ∃ row col : Nat, row < g.height ∧ col < g.width ∧
      blobBit f (g.bitOffset + row * g.width + col) = true ∧
      px = x + g.xOffset + col ∧ py = y + g.yOffset + row := by
  simp [charPixels, hg, mem_glyphRowPixels]

theorem length_charPixels_le {f : Font} {c : Byte} {g : Glyph} (hg : glyphOf f c = some g) (x y : Int) :
    (charPixels f x y c).length ≤ g.width * g.height := by
  have hrow : ∀ n ∈ (List.range g.height).map (fun row => (glyphRowPixels f g x y row).length), n ≤ g.width := by
    simp only [List.forall_mem_map]
    exact fun row _ => length_glyphRowPixels_le f g x y row
  have hsum := List.sum_le_card_nsmul _ _ hrow
  simpa [charPixels, hg, List.length_flatMap, Nat.mul_comm] using hsum

/-- `drawString` from the cursor `cx` plots each character at the sum of the widths before it, as long as that cursor is
below `maxX`: a cursor that has reached `maxX` stays there (45 R222, R223). -/
theorem mem_stringPixelsFrom {f : Font} {y maxX px py : Int} (text : List Byte) (cx : Int) :
    (px, py) ∈ stringPixelsFrom f y maxX cx text ↔ ∃ (k : Nat) (c : Byte), text[k]? = some c ∧
      cx + textWidth f (text.take k) < maxX ∧ (px, py) ∈ charPixels f (cx + textWidth f (text.take k)) y c := by
  induction text generalizing cx with
  | nil => simp [stringPixelsFrom]
  | cons c cs ih =>
    rw [stringPixelsFrom]
    split
    · next hend =>
      refine iff_of_false List.not_mem_nil ?_
      rintro ⟨k, c', -, hbelow, -⟩
      omega
    · next hbelow =>
      have hzero : cx + (textWidth f ((c :: cs).take 0) : Int) = cx := Int.add_zero cx
      have hsucc (k : Nat) : cx + (textWidth f ((c :: cs).take (k + 1)) : Int) =
          cx + charWidth f c + textWidth f (cs.take k) := by
        simp [textWidth, Int.add_assoc]
      rw [← Nat.or_exists_add_one, List.mem_append, ih]
      simp only [hzero, hsucc, List.getElem?_cons_zero, List.getElem?_cons_succ, Option.some.injEq,
        exists_eq_left', Int.not_le.mp hbelow, true_and]

/-- Settles O59: what a character plots, and for a text the sum of the widths before each character. -/
theorem drawingFollowsTheFontTable : Obligations.DrawingFollowsTheFontTable := by
  intro f x y px py
  refine ⟨fun k => blobBit_of_lt, fun c g hfirst hlast hg => ?_, fun c hc => ?_,
    fun maxX maxY text => ⟨fun hy => if_pos hy, fun hlow hhigh => ?_⟩⟩
  · have hglyph := (glyphOf_of_mem hfirst hlast).trans hg
    exact ⟨mem_charPixels hglyph, length_charPixels_le hglyph x y, by simp [charWidth, hglyph]⟩
  · have hnone := glyphOf_of_not_mem hc
    simp [charPixels, charWidth, hnone]
  · rw [stringPixels, if_neg (by omega)]
    exact mem_stringPixelsFrom text x

/-! Service of a commit request. -/

/-- The request pending in `s` is served: `n` steps leave it standing and `ACTIVE` as it is, and the step after them is a
tick, at most the `bound`-th, that copies the whole of `STAGE` and leaves the sequencer at `(0, B)` (42_commit R176, R180). -/
def CommitServed (bound : Nat) (s : State) : Prop :=
  ∃ (n : Nat) (u t : State),
    (s.inputs.take (n + 1)).count tickInput ≤ bound ∧
    (∀ m, m ≤ n → ∃ v, runSteps m s = .next v ∧ v.creq = true ∧ v.active = s.active) ∧
    runSteps n s = .next u ∧ u.inputs = s.inputs.drop n ∧ u.inputs.head? = some tickInput ∧
    step u = .next t ∧ t.active = u.stage ∧ t.creq = false ∧ t.row = 0 ∧ t.blank = s.cfg.b

/-- A commit request is pending and MainFlow has nothing to do. -/
structure AwaitsCommit (s : State) : Prop where
  inv : s.Inv
  free : s.host.pending = []
  creq : s.creq = true

/-- A step on the input `e` that leaves the request and `ACTIVE`; the sequencer moves on by one position if `e` is a tick,
and stays if not. -/
structure WaitStep (e : Input) (s t : State) : Prop where
  step_eq : step s = .next t
  awaits : AwaitsCommit t
  inputs_eq : s.inputs = e :: t.inputs
  active_eq : t.active = s.active
  position_eq : position t = position s + [e].count tickInput

/-- A longer time is allowed. -/
theorem CommitServed.mono {s : State} {m n : Nat} (h : CommitServed m s) (hmn : m ≤ n) : CommitServed n s := by
  obtain ⟨k, u, t, hcount, hrest⟩ := h
  exact ⟨k, u, t, hcount.trans hmn, hrest⟩

/-- What is served after a step of waiting is served. -/
theorem CommitServed.step_back {s s' : State} {e : Input} {bound : Nat} (h : CommitServed bound s')
    (hs : AwaitsCommit s) (hwait : WaitStep e s s') : CommitServed (bound + [e].count tickInput) s := by
  obtain ⟨n, u, t, hcount, hstands, hrun, hrest, hhead, hcopy, hstage, hclear, hrow, hblank⟩ := h
  refine ⟨n + 1, u, t, ?_, ?_, (runSteps_next hwait.step_eq).trans hrun, ?_, hhead, hcopy, hstage, hclear, hrow,
    hblank.trans (congrArg Config.b (step_cfg hwait.step_eq))⟩
  · rw [hwait.inputs_eq, List.take_succ_cons, List.count_cons, List.count_singleton]
    exact Nat.add_le_add_right hcount _
  · intro m hm
    cases m with
    | zero => exact ⟨s, rfl, hs.creq, rfl⟩
    | succ m =>
      obtain ⟨v, hv, hcreq, hactive⟩ := hstands m (Nat.le_of_succ_le_succ hm)
      exact ⟨v, (runSteps_next hwait.step_eq).trans hv, hcreq, hactive.trans hwait.active_eq⟩
  · rw [hwait.inputs_eq, List.drop_succ_cons, hrest]

/-- A tick copies exactly when a request stands and it moves to the first position of the pass (42_commit R172, R174). -/
theorem copies_iff {s : State} (h : s.Inv) : copies s = true ↔ position (tickBody s) = 0 ∧ s.creq = true := by
  have hblank : (advanceSequencer s).blank ≤ s.cfg.b := by simpa using (inv_advanceSequencer h).blank_le
  have hfirst : position (tickBody s) = 0 ↔ (advanceSequencer s).row = 0 ∧ (advanceSequencer s).blank = s.cfg.b := by
    simp only [position, tickBody_eq, Nat.add_eq_zero_iff, Nat.mul_eq_zero]
    omega
  simp only [copies, safeInstant, Bool.and_eq_true, beq_iff_eq, advanceSequencer_cfg, hfirst]

/-- A tick that does not copy the request it finds has not ended the pass: it goes on to the next position. -/
theorem position_tickBody_of_not_copies {s : State} (h : s.Inv) (hcreq : s.creq = true) (hcopies : copies s = false) :
    position (tickBody s) = position s + 1 := by
  have hlt := position_lt h
  have hnext := position_tickBody h
  have hne : position (tickBody s) ≠ 0 := fun h0 => by simp [(copies_iff h).mpr ⟨h0, hcreq⟩] at hcopies
  rcases Nat.lt_or_ge (position s + 1) (passLength s.cfg) with hin | hend
  · rw [hnext, Nat.mod_eq_of_lt hin]
  · rw [hnext, show position s + 1 = passLength s.cfg by omega, Nat.mod_self] at hne
    exact absurd rfl hne

/-- What a tick that copies leaves (42_commit R172, R173). -/
theorem tickBody_of_copies {s : State} (h : copies s = true) :
    (tickBody s).active = s.stage ∧ (tickBody s).creq = false ∧ (tickBody s).row = 0 ∧
      (tickBody s).blank = s.cfg.b := by
  have hsafe := h
  simp only [copies, safeInstant, Bool.and_eq_true, beq_iff_eq, advanceSequencer_cfg] at hsafe
  obtain ⟨⟨hrow, hblank⟩, -⟩ := hsafe
  rw [tickBody_eq, h]
  exact ⟨rfl, rfl, hrow, hblank⟩

/-- A tick that copies serves the request at once. -/
theorem commitServed_of_copies {s : State} {rest : List Input} (hs : AwaitsCommit s)
    (hinputs : s.inputs = tickInput :: rest) (hcopies : copies { s with inputs := rest } = true) :
    CommitServed 1 s := by
  refine ⟨0, s, _, ?_, fun m hm => ⟨s, ?_, hs.creq, rfl⟩, rfl, rfl, by rw [hinputs]; rfl,
    step_tickReq hs.inv.legal hs.inv.no_pending_tick hinputs, tickBody_of_copies hcopies⟩
  · rw [hinputs]
    exact List.count_le_length
  · rw [Nat.le_zero.mp hm, runSteps_zero]

/-- A tick that does not copy is a step of waiting. -/
theorem waitStep_tick {s : State} {rest : List Input} (hs : AwaitsCommit s) (hinputs : s.inputs = tickInput :: rest)
    (hcopies : copies { s with inputs := rest } = false) :
    WaitStep tickInput s (tickBody { s with inputs := rest }) := by
  have hu : ({ s with inputs := rest } : State).Inv := { hs.inv with }
  exact {
    step_eq := step_tickReq hs.inv.legal hs.inv.no_pending_tick hinputs
    awaits := {
      inv := inv_tickBody hu
      free := by simpa [tickBody_eq] using hs.free
      creq := by simpa [tickBody_eq, hcopies] using hs.creq }
    inputs_eq := by simpa [tickBody_eq] using hinputs
    active_eq := by simp [tickBody_eq, hcopies]
    position_eq := position_tickBody_of_not_copies hu hs.creq hcopies }

/-- A host-port word leaves the inputs to come and the host environment. -/
theorem exec_decodeWord_queues {g : Geometry} {s t : State} {w : Trans} (ht : exec (decodeWord g w) s = .next t) :
    t.inputs = s.inputs ∧ t.host = s.host := by
  unfold decodeWord decodeWrite decodeRead at ht
  split_ifs at ht <;> cases ht <;> exact ⟨rfl, rfl⟩

/-- Where the scan state is kept, so is the position. -/
theorem ScanKept.position_eq {s t : State} (h : ScanKept s t) (hcfg : t.cfg = s.cfg) : position t = position s := by
  rw [position, position, h.row, h.blank, hcfg]

/-- A host-port word is a step of waiting. -/
theorem exists_waitStep_word {s : State} {w : Trans} {rest : List Input} (hs : AwaitsCommit s)
    (hinputs : s.inputs = .op (.word w) :: rest) : ∃ t, WaitStep (.op (.word w)) s t := by
  obtain ⟨t, ht⟩ := exec_answers (decodeWord s.cfg.geo w) { s with inputs := rest }
  have hstep := (step_word hs.inv.legal hs.inv.no_pending_tick hs.free hinputs).trans ht
  have hkept : ScanKept s t := { scanKept_exec (isEvent_decodeWord _ _) ht with }
  obtain ⟨htail, hhost⟩ := exec_decodeWord_queues ht
  exact ⟨t, {
    step_eq := hstep
    awaits := {
      inv := stepKeepsTheInvariant s t hs.inv hstep
      free := by rw [hhost]; exact hs.free
      creq := hkept.creq hs.creq }
    inputs_eq := by rw [hinputs, htail]
    active_eq := hkept.active
    position_eq := hkept.position_eq (step_cfg hstep) }⟩

/-- A word or a tick at the head of the inputs serves the request or leaves it waiting. -/
theorem commitServed_or_waitStep {s : State} {e : Input} {rest : List Input} (hs : AwaitsCommit s)
    (he : e = tickInput ∨ ∃ w, e = .op (.word w)) (hinputs : s.inputs = e :: rest) :
    CommitServed 1 s ∨ ∃ t, WaitStep e s t := by
  rcases he with rfl | ⟨w, rfl⟩
  · cases hcopies : copies { s with inputs := rest } with
    | true => exact .inl (commitServed_of_copies hs hinputs hcopies)
    | false => exact .inr ⟨_, waitStep_tick hs hinputs hcopies⟩
  · exact .inr (exists_waitStep_word hs hinputs)

/-- With words and enough ticks to come, the request is served by the tick that ends the pass: as many ticks away as there
are positions left. -/
theorem commitServed_of_ticks {s : State} (l : List Input) (hs : AwaitsCommit s) (hinputs : s.inputs = l)
    (hl : ∀ e ∈ l, e = tickInput ∨ ∃ w, e = .op (.word w))
    (hticks : passLength s.cfg ≤ position s + l.count tickInput) :
    CommitServed (passLength s.cfg - position s) s := by
  have hlt := position_lt hs.inv
  induction l generalizing s with
  | nil =>
    rw [List.count_nil] at hticks
    omega
  | cons e rest ih =>
    obtain ⟨hhead, hrest⟩ := List.forall_mem_cons.mp hl
    rcases commitServed_or_waitStep hs hhead hinputs with hnow | ⟨t, ht⟩
    · exact hnow.mono (by omega)
    · have hcfg := step_cfg ht.step_eq
      have hpos := ht.position_eq
      have htail : t.inputs = rest := (List.cons.inj (ht.inputs_eq.symm.trans hinputs)).2
      have hlt' : position t < passLength s.cfg := hcfg ▸ position_lt ht.awaits.inv
      have hserved := ih ht.awaits htail hrest (by
        rw [hcfg, hpos, List.count_singleton]
        rw [List.count_cons] at hticks
        omega) (position_lt ht.awaits.inv)
      rw [hcfg] at hserved
      exact (hserved.step_back hs ht).mono (by omega)

/-- Settles O38: a pass has `H * (B + 1)` positions, so from each of them its end is at most that many ticks away. -/
theorem commitIsServedWithinOnePass : Obligations.CommitIsServedWithinOnePass :=
  fun s h hfree hcreq hl hticks =>
    have hserved := commitServed_of_ticks s.inputs ⟨h, hfree, hcreq⟩ rfl hl (hticks.trans (Nat.le_add_left _ _))
    hserved.mono (Nat.sub_le _ _)

end Sys2Proof.Machine

/-! Proofs of 30_encoding: the decoder by address ranges, the opcode table, the bus bytes, the encoder, the serial
frame, and MainFlow's routine with ticks inside it. -/

namespace Sys2Proof.Machine

/-! The opcode map by address ranges (30_encoding R92, 20_memory R62). -/

/-- The write rows of the map, with the addresses as numbers. -/
theorem decodeWrite_eq (g : Geometry) (a : Addr) (d : Word) :
    decodeWrite g a d =
      if a.toNat = 0 then .wrCtrl d
      else if a.toNat = 1 then .wrCommit d
      else if a.toNat = 2 then .wrScroll d
      else if inWindow g 0x10 a then .wrStage (rowOf a) d
      else .wrIgnored a d := by
  have hstage : rowWindow g 1#4 a = inWindow g 0x10 a := rowWindow_eq_inWindow g _ a
  simp only [decodeWrite, ← BitVec.toNat_inj, hstage]
  rfl

/-- The read rows of the map, with the addresses as numbers. -/
theorem decodeRead_eq (g : Geometry) (a : Addr) :
    decodeRead g a =
      if a.toNat = 0 then .rdCtrl
      else if a.toNat = 1 then .rdCommit
      else if a.toNat = 2 then .rdScroll
      else if inWindow g 0x10 a then .rdStage (rowOf a)
      else if inWindow g 0x20 a then .rdVrow (rowOf a)
      else .rdZero a := by
  have hstage : rowWindow g 1#4 a = inWindow g 0x10 a := rowWindow_eq_inWindow g _ a
  have hvrow : rowWindow g 2#4 a = inWindow g 0x20 a := rowWindow_eq_inWindow g _ a
  simp only [decodeRead, ← BitVec.toNat_inj, hstage, hvrow]
  rfl

theorem inWindow_iff {g : Geometry} {base : Nat} {a : Addr} :
    inWindow g base a = true ↔ base ≤ a.toNat ∧ a.toNat < base + g.h := by
  simp [inWindow]

/-- The row operand of the address of row `r` in a window. -/
theorem rowOf_eq {page : Nat} {a : Addr} {r : RowIx} (ha : a.toNat = 16 * page + r.toNat) : rowOf a = r := by
  apply BitVec.eq_of_toNat_eq
  rw [toNat_rowOf]
  omega

theorem decodeWrite_of_stageRow {g : Geometry} {a : Addr} {r : RowIx} (hr : r.toNat < g.h)
    (ha : a.toNat = 0x10 + r.toNat) (d : Word) : decodeWrite g a d = .wrStage r d := by
  have hin : inWindow g 0x10 a = true := inWindow_iff.mpr (by omega)
  rw [decodeWrite_eq, if_neg (by omega), if_neg (by omega), if_neg (by omega), if_pos hin, rowOf_eq (page := 1) ha]

theorem decodeRead_of_stageRow {g : Geometry} {a : Addr} {r : RowIx} (hr : r.toNat < g.h)
    (ha : a.toNat = 0x10 + r.toNat) : decodeRead g a = .rdStage r := by
  have hin : inWindow g 0x10 a = true := inWindow_iff.mpr (by omega)
  rw [decodeRead_eq, if_neg (by omega), if_neg (by omega), if_neg (by omega), if_pos hin, rowOf_eq (page := 1) ha]

theorem decodeRead_of_visibleRow {g : Geometry} {a : Addr} {r : RowIx} (hr : r.toNat < g.h)
    (ha : a.toNat = 0x20 + r.toNat) : decodeRead g a = .rdVrow r := by
  have hw : g.h ≤ 16 := w_le_16 g
  have hout : ¬ inWindow g 0x10 a = true := mt inWindow_iff.mp (by omega)
  have hin : inWindow g 0x20 a = true := inWindow_iff.mpr (by omega)
  rw [decodeRead_eq, if_neg (by omega), if_neg (by omega), if_neg (by omega), if_neg hout, if_pos hin,
    rowOf_eq (page := 2) ha]

theorem decodeWrite_of_unmapped {g : Geometry} {a : Addr} (h2 : 2 < a.toNat) (hstage : ¬ inWindow g 0x10 a = true)
    (d : Word) : decodeWrite g a d = .wrIgnored a d := by
  rw [decodeWrite_eq, if_neg (by omega), if_neg (by omega), if_neg (by omega), if_neg hstage]

theorem decodeRead_of_unmapped {g : Geometry} {a : Addr} (h2 : 2 < a.toNat) (hstage : ¬ inWindow g 0x10 a = true)
    (hvrow : ¬ inWindow g 0x20 a = true) : decodeRead g a = .rdZero a := by
  rw [decodeRead_eq, if_neg (by omega), if_neg (by omega), if_neg (by omega), if_neg hstage, if_neg hvrow]

/-- Settles O4, row by row of the map. -/
theorem opcodeMapSelectsByRwAndAddress : Obligations.OpcodeMapSelectsByRwAndAddress := by
  intro g a d
  simp only [decodeWord_write, decodeWord_read]
  exact ⟨fun h => by simp [decodeWrite_eq, h], fun h => by simp [decodeRead_eq, h],
    fun h => by simp [decodeWrite_eq, h], fun h => by simp [decodeRead_eq, h],
    fun h => by simp [decodeWrite_eq, h], fun h => by simp [decodeRead_eq, h],
    fun r hr ha => ⟨decodeWrite_of_stageRow hr ha d, decodeRead_of_stageRow hr ha⟩,
    fun r hr ha => decodeRead_of_visibleRow hr ha,
    fun h2 hstage => decodeWrite_of_unmapped h2 (mt inWindow_iff.mp hstage) d,
    fun h2 hstage hvrow => decodeRead_of_unmapped h2 (mt inWindow_iff.mp hstage) (mt inWindow_iff.mp hvrow)⟩

/-! The opcode table (30_encoding R102). -/

theorem trans_eq_iff {t u : Trans} : t = u ↔ t.rw = u.rw ∧ t.addr = u.addr ∧ t.data = u.data := by
  refine ⟨fun h => h ▸ ⟨rfl, rfl, rfl⟩, fun ⟨hrw, haddr, hdata⟩ => ?_⟩
  rw [← mkTrans_fields t, ← mkTrans_fields u, hrw, haddr, hdata]

@[simp] theorem rw_and (t u : Trans) : Trans.rw (t &&& u) = (t.rw && u.rw) := BitVec.getLsbD_and

@[simp] theorem addr_and (t u : Trans) : Trans.addr (t &&& u) = t.addr &&& u.addr := BitVec.extractLsb'_and

@[simp] theorem data_and (t u : Trans) : Trans.data (t &&& u) = t.data &&& u.data := BitVec.extractLsb'_and

/-- The bits of `ADDR` from bit `k` up. -/
def highBits (k : Nat) : Addr := BitVec.allOnes 8 <<< k

/-- A mask of the high bits rounds the address down to a multiple of `2^k`. -/
theorem toNat_and_highBits (a : Addr) (k : Nat) : (a &&& highBits k).toNat = a.toNat / 2 ^ k * 2 ^ k := by
  have h : a &&& highBits k = a >>> k <<< k := by
    apply BitVec.eq_of_getLsbD_eq
    intro i hi
    rw [highBits, BitVec.getLsbD_and, BitVec.getLsbD_shiftLeft, BitVec.getLsbD_shiftLeft, BitVec.getLsbD_ushiftRight,
      BitVec.getLsbD_allOnes]
    by_cases hk : i < k
    · simp [hk]
    · have hsub : i - k < 8 := by omega
      have hadd : k + (i - k) = i := by omega
      simp [hk, hsub, hadd, Bool.and_comm]
  have hle : a.toNat / 2 ^ k * 2 ^ k < 2 ^ 8 := lt_of_le_of_lt (Nat.div_mul_le_self _ _) a.isLt
  rw [h, BitVec.toNat_shiftLeft, BitVec.toNat_ushiftRight, Nat.shiftRight_eq_div_pow, Nat.shiftLeft_eq,
    Nat.mod_eq_of_lt hle]

/-- The word meets the row's pattern under its mask. -/
def meetsRow (g : Geometry) (t : Trans) (row : TableRow) : Bool := (t &&& row.maskFor g) == row.pattern

/-- A row whose mask is `RW` and the bits of `ADDR` from bit `k` up takes one direction, and the addresses that round
down to the pattern's. -/
theorem meetsRow_of_mask {g : Geometry} {row : TableRow} {c : Bool} {p : Addr} (k : Nat)
    (hmask : row.maskFor g = mkTrans true (highBits k) 0) (hpattern : row.pattern = mkTrans c p 0) (t : Trans) :
    meetsRow g t row = (t.rw == c && decide (t.addr.toNat / 2 ^ k * 2 ^ k = p.toNat)) := by
  have haddr : t.addr &&& highBits k = p ↔ t.addr.toNat / 2 ^ k * 2 ^ k = p.toNat := by
    rw [← BitVec.toNat_inj, toNat_and_highBits]
  rw [Bool.eq_iff_iff, meetsRow, beq_iff_eq, trans_eq_iff, hmask, hpattern]
  simp [haddr]

/-- A mask that is the same in both geometries. -/
theorem maskFor_eq {row : TableRow} {m : Trans} (h8 : row.maskFor .g8 = m) (h16 : row.maskFor .g16 = m) :
    ∀ g, row.maskFor g = m
  | .g8 => h8
  | .g16 => h16

/-- A row for one address. -/
theorem meetsRow_address {row : TableRow} {c : Bool} {p : Addr}
    (hmask8 : row.maskFor .g8 = mkTrans true (highBits 0) 0) (hmask16 : row.maskFor .g16 = mkTrans true (highBits 0) 0)
    (hpattern : row.pattern = mkTrans c p 0) (g : Geometry) (t : Trans) :
    meetsRow g t row = (t.rw == c && decide (t.addr.toNat = p.toNat)) := by
  rw [meetsRow_of_mask 0 (maskFor_eq hmask8 hmask16 g) hpattern, Nat.pow_zero, Nat.div_one, Nat.mul_one]

/-- A row for a window: its mask leaves out the bits of `ADDR` that number the `H` rows. -/
theorem meetsRow_window {row : TableRow} {c : Bool} {p : Addr}
    (hmask8 : row.maskFor .g8 = mkTrans true (highBits 3) 0) (hmask16 : row.maskFor .g16 = mkTrans true (highBits 4) 0)
    (hpattern : row.pattern = mkTrans c p 0) (hp : p.toNat % 16 = 0) (g : Geometry) (t : Trans) :
    meetsRow g t row = (t.rw == c && inWindow g p.toNat t.addr) := by
  cases g with
  | g8 =>
    rw [meetsRow_of_mask 3 hmask8 hpattern, inWindow, ← Bool.decide_and, Geometry.h, Geometry.w]
    congr 2
    rw [eq_iff_iff]
    omega
  | g16 =>
    rw [meetsRow_of_mask 4 hmask16 hpattern, inWindow, ← Bool.decide_and, Geometry.h, Geometry.w]
    congr 2
    rw [eq_iff_iff]
    omega

/-- A row for every address. -/
theorem meetsRow_direction {row : TableRow} {c : Bool}
    (hmask8 : row.maskFor .g8 = mkTrans true (highBits 8) 0) (hmask16 : row.maskFor .g16 = mkTrans true (highBits 8) 0)
    (hpattern : row.pattern = mkTrans c 0#8 0) (g : Geometry) (t : Trans) : meetsRow g t row = (t.rw == c) := by
  have hzero : t.addr.toNat / 2 ^ 8 * 2 ^ 8 = (0#8).toNat := by
    rw [Nat.div_eq_of_lt t.addr.isLt]
    rfl
  rw [meetsRow_of_mask 8 (maskFor_eq hmask8 hmask16 g) hpattern, decide_eq_true hzero, Bool.and_true]

theorem find?_cons_eq_ite {α : Type} (p : α → Bool) (x : α) (xs : List α) :
    (x :: xs).find? p = if p x then some x else xs.find? p := by
  cases h : p x with
  | true => exact List.find?_cons_of_pos h
  | false => exact List.find?_cons_of_neg (by simp [h])

/-- The first row that a word meets, by its direction and its address. -/
theorem tableRowOf_eq (g : Geometry) (t : Trans) :
    tableRowOf g t = some
      (if t.rw then
        if t.addr.toNat = 0 then opcodeTable[0]
        else if t.addr.toNat = 1 then opcodeTable[2]
        else if t.addr.toNat = 2 then opcodeTable[4]
        else if inWindow g 0x10 t.addr then opcodeTable[6]
        else opcodeTable[9]
      else
        if t.addr.toNat = 0 then opcodeTable[1]
        else if t.addr.toNat = 1 then opcodeTable[3]
        else if t.addr.toNat = 2 then opcodeTable[5]
        else if inWindow g 0x10 t.addr then opcodeTable[7]
        else if inWindow g 0x20 t.addr then opcodeTable[8]
        else opcodeTable[10]) := by
  have hwrCtrl := meetsRow_address (row := opcodeTable[0]) (c := true) (p := 0#8) rfl rfl rfl g t
  have hrdCtrl := meetsRow_address (row := opcodeTable[1]) (c := false) (p := 0#8) rfl rfl rfl g t
  have hwrCommit := meetsRow_address (row := opcodeTable[2]) (c := true) (p := 1#8) rfl rfl rfl g t
  have hrdCommit := meetsRow_address (row := opcodeTable[3]) (c := false) (p := 1#8) rfl rfl rfl g t
  have hwrScroll := meetsRow_address (row := opcodeTable[4]) (c := true) (p := 2#8) rfl rfl rfl g t
  have hrdScroll := meetsRow_address (row := opcodeTable[5]) (c := false) (p := 2#8) rfl rfl rfl g t
  have hwrStage := meetsRow_window (row := opcodeTable[6]) (c := true) (p := 0x10#8) rfl rfl rfl rfl g t
  have hrdStage := meetsRow_window (row := opcodeTable[7]) (c := false) (p := 0x10#8) rfl rfl rfl rfl g t
  have hrdVrow := meetsRow_window (row := opcodeTable[8]) (c := false) (p := 0x20#8) rfl rfl rfl rfl g t
  have hwrIgnored := meetsRow_direction (row := opcodeTable[9]) (c := true) rfl rfl rfl g t
  have hrdZero := meetsRow_direction (row := opcodeTable[10]) (c := false) rfl rfl rfl g t
  change [opcodeTable[0], opcodeTable[1], opcodeTable[2], opcodeTable[3], opcodeTable[4], opcodeTable[5],
    opcodeTable[6], opcodeTable[7], opcodeTable[8], opcodeTable[9], opcodeTable[10]].find? (meetsRow g t) = _
  simp only [find?_cons_eq_ite, hwrCtrl, hrdCtrl, hwrCommit, hrdCommit, hwrScroll, hrdScroll, hwrStage, hrdStage,
    hrdVrow, hwrIgnored, hrdZero]
  cases t.rw with
  | true => simp [apply_ite some]
  | false => simp [apply_ite some]

/-- Settles O5: the map and the table make the same case distinction. -/
theorem decoderAgreesWithOpcodeTable : Obligations.DecoderAgreesWithOpcodeTable := by
  intro g t
  refine ⟨_, tableRowOf_eq g t, ?_⟩
  rw [decodeWord, decodeWrite_eq, decodeRead_eq]
  split_ifs <;> rfl

/-! Bus bytes (30_encoding R96 to R98). -/

/-- A text without a newline ends at the newline after it. -/
theorem decodeText_newline {text : List Byte} (h : textWellFormed text = true) (rest : List Byte) :
    decodeText (text ++ 0x0A#8 :: rest) = text := by
  rw [decodeText, List.takeWhile_append_of_pos (List.all_eq_true.mp h)]
  simp

/-- A text without a newline ends at the end of the buffer. -/
theorem decodeText_end {text : List Byte} (h : textWellFormed text = true) : decodeText text = text :=
  List.takeWhile_eq_self_iff.mpr (List.all_eq_true.mp h)

theorem textWellFormed_decodeText (payload : List Byte) : textWellFormed (decodeText payload) = true :=
  List.all_takeWhile

/-- An opcode byte above those of the five commands. -/
theorem decodeBus_of_five_le {op : Byte} (h : 5 ≤ op.toNat) (payload : List Byte) :
    decodeBus (op :: payload) = .ok (.unknownCommand op payload) := by
  have hne : ∀ k : Byte, k.toNat < 5 → op ≠ k := by
    rintro k hk rfl
    omega
  rw [decodeBus, if_neg (hne _ (by decide)), if_neg (hne _ (by decide)), if_neg (hne _ (by decide)),
    if_neg (hne _ (by decide)), if_neg (hne _ (by decide))]

theorem decodeBus_setMessage (payload : List Byte) :
    decodeBus (0x01#8 :: payload) = .ok (.setMessage (decodeText payload)) := rfl

theorem decodeBus_showTempMessage (payload : List Byte) :
    decodeBus (0x04#8 :: payload) = .ok (.showTempMessage (decodeText payload)) := rfl

/-- Settles O7: the two places where a text ends, the one-byte payloads, and the opcodes of no command. -/
theorem busBytesDecode : Obligations.BusBytesDecode := by
  refine fun g text rest b =>
    ⟨fun h => ?_, rfl, rfl, rfl, rfl, rfl, rfl, fun h => decodeBus_of_five_le h rest⟩
  simp only [decode, decodeBus_setMessage, decodeBus_showTempMessage, decodeText_newline h, decodeText_end h, and_self]

/-- Settles O6, each word and each command by evaluation. -/
theorem writtenOutWordsDecode : Obligations.WrittenOutWordsDecode :=
  ⟨rfl, rfl, rfl, rfl, rfl, rfl, rfl, rfl, rfl, rfl, rfl, rfl⟩

/-! The decoder and the encoder. -/

/-- The address of row `r` in the window of a page, as the encoder makes it (30_encoding R93). -/
theorem toNat_rowAddr {base : Addr} (hbase : base.toNat ≤ 0x20) (r : RowIx) :
    (base + r.zeroExtend 8).toNat = base.toNat + r.toNat := by
  have hr := r.isLt
  rw [BitVec.toNat_add, BitVec.toNat_setWidth]
  omega

/-- The address of a row of a window is made from its row number. -/
theorem rowAddr_rowOf {g : Geometry} {page : RowIx} {base a : Addr} (hbase : base.toNat = 16 * page.toNat)
    (hle : base.toNat ≤ 0x20) (hin : inWindow g (16 * page.toNat) a = true) :
    base + (rowOf a).zeroExtend 8 = a := by
  apply BitVec.eq_of_toNat_eq
  rw [toNat_rowAddr hle, toNat_rowOf_of_inWindow hin]
  obtain ⟨hge, -⟩ := inWindow_iff.mp hin
  omega

/-- Settles O1: the words by the rows of the opcode map, the commands by their bytes. -/
theorem decodeEncodeRoundTrip : Obligations.DecodeEncodeRoundTrip := by
  intro g i hi
  have hword (w : Trans) : decode g (.word w) = .ok (decodeWord g w) := rfl
  cases i with
  | wrStage r d =>
    have hr : r.toNat < g.h := by simpa [Instr.wellFormed] using hi
    rw [encode, hword, decodeWord_write, decodeWrite_of_stageRow hr (toNat_rowAddr (by decide) r)]
  | rdStage r =>
    have hr : r.toNat < g.h := by simpa [Instr.wellFormed] using hi
    rw [encode, hword, decodeWord_read, decodeRead_of_stageRow hr (toNat_rowAddr (by decide) r)]
  | rdVrow r =>
    have hr : r.toNat < g.h := by simpa [Instr.wellFormed] using hi
    rw [encode, hword, decodeWord_read, decodeRead_of_visibleRow hr (toNat_rowAddr (by decide) r)]
  | wrIgnored a d =>
    obtain ⟨h2, hstage⟩ : 2 < a.toNat ∧ inWindow g 0x10 a = false := by simpa [Instr.wellFormed] using hi
    rw [encode, hword, decodeWord_write, decodeWrite_of_unmapped h2 (by simp [hstage])]
  | rdZero a =>
    obtain ⟨⟨h2, hstage⟩, hvrow⟩ :
        (2 < a.toNat ∧ inWindow g 0x10 a = false) ∧ inWindow g 0x20 a = false := by
      simpa [Instr.wellFormed] using hi
    rw [encode, hword, decodeWord_read, decodeRead_of_unmapped h2 (by simp [hstage]) (by simp [hvrow])]
  | setMessage text => rw [encode, decode, List.cons_append, decodeBus_setMessage, decodeText_newline hi]
  | showTempMessage text => rw [encode, decode, List.cons_append, decodeBus_showTempMessage, decodeText_newline hi]
  | unknownCommand op payload => exact decodeBus_of_five_le (by simpa [Instr.wellFormed] using hi) payload
  | setDisplay b => cases b <;> rfl
  | setScrollSpeed b => cases b <;> rfl
  | setDisplayMode b => cases b <;> rfl
  | tick => rfl
  | reset => rfl
  | wrCtrl d => rw [encode, hword, decodeWord_write]; rfl
  | wrCommit d => rw [encode, hword, decodeWord_write]; rfl
  | wrScroll d => rw [encode, hword, decodeWord_write]; rfl
  | rdCtrl => rfl
  | rdCommit => rfl
  | rdScroll => rfl

/-- A row number that the decoder takes from an address of a window is below `H`. -/
theorem toNat_rowOf_lt {g : Geometry} {page : RowIx} {a : Addr} (h : inWindow g (16 * page.toNat) a = true) :
    (rowOf a).toNat < g.h := by
  obtain ⟨hge, hlt⟩ := inWindow_iff.mp h
  rw [toNat_rowOf_of_inWindow h]
  omega

theorem wellFormed_decodeWrite (g : Geometry) (a : Addr) (d : Word) : (decodeWrite g a d).wellFormed g = true := by
  rw [decodeWrite_eq]
  split_ifs with _ _ _ hstage
  · rfl
  · rfl
  · rfl
  · exact decide_eq_true (toNat_rowOf_lt (page := 1#4) hstage)
  · have h2 : 2 < a.toNat := by omega
    simp [Instr.wellFormed, h2, hstage]

theorem wellFormed_decodeRead (g : Geometry) (a : Addr) : (decodeRead g a).wellFormed g = true := by
  rw [decodeRead_eq]
  split_ifs with _ _ _ hstage hvrow
  · rfl
  · rfl
  · rfl
  · exact decide_eq_true (toNat_rowOf_lt (page := 1#4) hstage)
  · exact decide_eq_true (toNat_rowOf_lt (page := 2#4) hvrow)
  · have h2 : 2 < a.toNat := by omega
    simp [Instr.wellFormed, h2, hstage, hvrow]

theorem wellFormed_of_decodeBus {g : Geometry} {bytes : List Byte} {i : Instr} (h : decodeBus bytes = .ok i) :
    i.wellFormed g = true := by
  unfold decodeBus at h
  split at h
  · cases h
  · next op payload =>
    split_ifs at h with h0 h1 h2 h3 h4 <;> cases h
    · rfl
    · exact textWellFormed_decodeText payload
    · rfl
    · rfl
    · exact textWellFormed_decodeText payload
    · exact decide_eq_true (by bv_omega)

/-- Settles O2, by the form decoded. -/
theorem decodedInstructionsAreWellFormed : Obligations.DecodedInstructionsAreWellFormed := by
  intro g f i h
  cases f with
  | word w =>
    cases h
    unfold decodeWord
    split
    · exact wellFormed_decodeWrite g _ _
    · exact wellFormed_decodeRead g _
  | bus bytes => exact wellFormed_of_decodeBus h
  | tickReq => cases h; rfl
  | rst => cases h; rfl

theorem encode_decodeWrite (g : Geometry) (a : Addr) (d : Word) :
    encode (decodeWrite g a d) = .word (mkTrans true a d) := by
  unfold decodeWrite
  split_ifs with h0 h1 h2 hstage
  · rw [h0, encode]
  · rw [h1, encode]
  · rw [h2, encode]
  · rw [rowWindow_eq_inWindow] at hstage
    rw [encode, rowAddr_rowOf (base := 0x10#8) (page := 1#4) rfl (by decide) hstage]
  · rw [encode]

theorem encode_decodeRead (g : Geometry) (a : Addr) : encode (decodeRead g a) = .word (mkTrans false a 0) := by
  unfold decodeRead
  split_ifs with h0 h1 h2 hstage hvrow
  · rw [h0]; rfl
  · rw [h1]; rfl
  · rw [h2]; rfl
  · rw [rowWindow_eq_inWindow] at hstage
    rw [encode, rowAddr_rowOf (base := 0x10#8) (page := 1#4) rfl (by decide) hstage]
    rfl
  · rw [rowWindow_eq_inWindow] at hvrow
    rw [encode, rowAddr_rowOf (base := 0x20#8) (page := 2#4) rfl (by decide) hvrow]
    rfl
  · rfl

/-- Settles O3, by the rows of the map, writes and reads. -/
theorem wordsEncodeBackFromTheirOperation : Obligations.WordsEncodeBackFromTheirOperation := by
  intro g a d
  rw [decodeWord_write, decodeWord_read]
  exact ⟨encode_decodeWrite g a d, encode_decodeRead g a⟩

/-! The serial frame (30_encoding R94). -/

theorem length_wordBits (v : Word) (n : Nat) : (wordBits v n).length = n := by
  induction n with
  | zero => rfl
  | succ n ih => rw [wordBits, List.length_cons, ih]

/-- The bits of a word, the most significant first. -/
theorem getElem?_wordBits (v : Word) {n k : Nat} (hk : k < n) : (wordBits v n)[k]? = some (v.getLsbD (n - 1 - k)) := by
  induction n generalizing k with
  | zero => omega
  | succ n ih =>
    cases k with
    | zero => rfl
    | succ k =>
      rw [wordBits, List.getElem?_cons_succ, ih (by omega)]
      congr 2
      omega

/-- `shift_out` is one `SCLK` edge for each bit of its list (41_refresh_tick R146). -/
theorem shiftOut_eq_foldl (g : Geometry) (v : Word) (n : Nat) (p : Panel) :
    shiftOut g v n p = (wordBits v n).foldl (fun c b => shiftBit g b c) p := by
  induction n generalizing p with
  | zero => rfl
  | succ n ih => rw [shiftOut, ih, wordBits, List.foldl_cons]

/-- The chain after both words, whatever it held. -/
theorem sr_shiftOut_shiftOut {g : Geometry} {d sel : Word} (hd : d.toNat < 2 ^ g.w) (hsel : sel.toNat < 2 ^ g.w)
    (p : Panel) : (shiftOut g sel g.w (shiftOut g d g.w p)).sr = chainOf g d sel :=
  congrArg Panel.sr (sendFrame_eq g d sel hd hsel p)

/-- `{D, S}` as a number. -/
theorem toNat_chainOf {g : Geometry} {d sel : Word} (hd : d.toNat < 2 ^ g.w) (hsel : sel.toNat < 2 ^ g.w) :
    (chainOf g d sel).toNat = d.toNat * 2 ^ g.w + sel.toNat := by
  have hfit : d.toNat * 2 ^ g.w < 2 ^ 32 := by
    cases g <;> simp only [Geometry.w] at * <;> omega
  have hd32 : d.toNat < 2 ^ 32 := lt_trans d.isLt (by decide)
  have hsel32 : sel.toNat < 2 ^ 32 := lt_trans sel.isLt (by decide)
  rw [chainOf, BitVec.toNat_or, BitVec.toNat_shiftLeft, BitVec.toNat_setWidth, BitVec.toNat_setWidth,
    Nat.mod_eq_of_lt hd32, Nat.mod_eq_of_lt hsel32, Nat.shiftLeft_eq, Nat.mod_eq_of_lt hfit, ← Nat.shiftLeft_eq,
    Nat.shiftLeft_add_eq_or_of_lt hsel]

/-- Settles O32: the data word's bits, then the select word's, each clocked in turn. -/
theorem serialFrameFillsTheChain : Obligations.SerialFrameFillsTheChain := by
  intro g d sel p hd hsel
  refine ⟨?_, fun k hk => ?_, fun k hk hk2 => ?_, ?_, ?_, by rw [shiftOut_q, shiftOut_q]⟩
  · rw [serialFrame, List.length_append, length_wordBits, length_wordBits, Nat.two_mul]
  · rw [serialFrame, List.getElem?_append_left (by rwa [length_wordBits]), getElem?_wordBits d hk]
  · rw [serialFrame, List.getElem?_append_right (by rwa [length_wordBits]), length_wordBits,
      getElem?_wordBits sel (by omega)]
    congr 2
    omega
  · rw [serialFrame, List.foldl_append, shiftOut_eq_foldl, shiftOut_eq_foldl]
  · rw [sr_shiftOut_shiftOut hd hsel, toNat_chainOf hd hsel]

/-! MainFlow's turn, and ticks inside its routine (30_encoding R101, 60_exceptions R268). -/

/-- With MainFlow's turn as the next input, a step is MainFlow's. -/
theorem step_go {s : State} {rest : List Input} (h : legalConfig s.cfg = true) (hp : s.tickPend = false)
    (hi : s.inputs = .go :: rest) : step s = mainStep { s with inputs := rest } := by
  rw [step_input h hp hi, acceptInput, takeInput, hi]
  rfl

/-- MainFlow's turn is its next host-port operation. -/
theorem step_go_op {s : State} {op : MainOp} {ops : List MainOp} {i : Instr} {rest : List Input}
    (h : legalConfig s.cfg = true) (hp : s.tickPend = false) (hops : s.host.pending = op :: ops)
    (hi : op.toInstr s.hpRdata = some i) (hinputs : s.inputs = .go :: rest) :
    step s = exec i { s with host.pending := ops, inputs := rest } :=
  (step_go h hp hinputs).trans (mainStep_op (s := { s with inputs := rest }) hops hi)

/-- Settles O9: in both cases the step is MainFlow's, and that is its next operation. -/
theorem routineIsTakenOneOperationAStep : Obligations.RoutineIsTakenOneOperationAStep :=
  fun _ _ _ _ hl hp hops hi =>
    ⟨fun hinputs => (step_no_input hl hp hinputs).trans (mainStep_op hops hi), fun _ => step_go_op hl hp hops hi⟩

/-- What no tick touches: `STAGE`, the flags `DISP_EN` and `SRC`, the index, `hp_rdata` and MainFlow's own state
(41_refresh_tick R154). -/
structure KeptByTicks (s t : State) : Prop where
  stage : t.stage = s.stage
  dispEn : t.dispEn = s.dispEn
  src : t.src = s.src
  scrollIdx : t.scrollIdx = s.scrollIdx
  hpRdata : t.hpRdata = s.hpRdata
  host : t.host = s.host
  cfg : t.cfg = s.cfg

theorem keptByTicks_tickBody (s : State) (l : List Input) : KeptByTicks s (tickBody { s with inputs := l }) := by
  rw [tickBody_eq]
  exact ⟨rfl, rfl, rfl, rfl, rfl, rfl, rfl⟩

theorem KeptByTicks.trans {s t u : State} (hst : KeptByTicks s t) (htu : KeptByTicks t u) : KeptByTicks s u where
  stage := htu.stage.trans hst.stage
  dispEn := htu.dispEn.trans hst.dispEn
  src := htu.src.trans hst.src
  scrollIdx := htu.scrollIdx.trans hst.scrollIdx
  hpRdata := htu.hpRdata.trans hst.hpRdata
  host := htu.host.trans hst.host
  cfg := htu.cfg.trans hst.cfg

/-- A run of ticks keeps the invariant and what no tick touches. -/
theorem keptByTicks_of_runSteps {n : Nat} {s t : State} {rest : List Input} (h : s.Inv)
    (hi : s.inputs = List.replicate n tickInput ++ rest) (hrun : runSteps n s = .next t) :
    t.Inv ∧ KeptByTicks s t := by
  induction n generalizing s with
  | zero =>
    cases hrun
    exact ⟨h, rfl, rfl, rfl, rfl, rfl, rfl, rfl⟩
  | succ n ih =>
    rw [List.replicate_succ, List.cons_append] at hi
    rw [runSteps_next (step_tickReq h.legal h.no_pending_tick hi)] at hrun
    have hinv := inv_tickBody (s := { s with inputs := List.replicate n tickInput ++ rest }) { h with }
    obtain ⟨ht, hkept⟩ := ih hinv (by rw [tickBody_eq]) hrun
    exact ⟨ht, (keptByTicks_tickBody s _).trans hkept⟩

/-! What `SET_DISPLAY` writes back (30_encoding R101). -/

theorem boolPayload_eq (b : Byte) : boolPayload b = decide (b.toNat ≠ 0) := by
  rw [Bool.eq_iff_iff]
  simp [boolPayload, ← BitVec.toNat_inj]

/-- `DATA[0]` of the word written back is the new `DISP_EN`. -/
theorem dataBit0_setDisplay (v : Bool) (w : Word) : dataBit0 ((w &&& 0xFFFE#16) ||| bitWord v) = v := by
  simp [dataBit0, bitWord]

/-- `DATA[1]` of the word written back is that of the word read. -/
theorem dataBit1_setDisplay (v : Bool) (w : Word) : dataBit1 ((w &&& 0xFFFE#16) ||| bitWord v) = dataBit1 w := by
  cases v <;> simp [dataBit1, bitWord]

/-- `SRC` as a read of `CTRL` shows it. -/
theorem dataBit1_ctrlWord (s : State) : dataBit1 (ctrlWord s) = s.src := by
  cases hd : s.dispEn <;> simp [dataBit1, ctrlWord, bitWord, hd]

/-- Writing back the word read from `CTRL` with a new `DISP_EN` leaves `SRC` (44_bus_commands R201). -/
theorem src_writeCtrlFlags_setDisplay {s : State} (h : s.Inv) (v : Bool) :
    (s.cfg.hasDirectAnim && dataBit1 ((ctrlWord s &&& 0xFFFE#16) ||| bitWord v)) = s.src := by
  rw [dataBit1_setDisplay, dataBit1_ctrlWord]
  cases hd : s.cfg.hasDirectAnim with
  | true => exact Bool.true_and _
  | false => exact (h.src_off hd).symm

/-- Settles O46: the read is one step, the ticks keep what it read and what the write leaves, and the write is one
step. -/
theorem ticksInsideSetDisplayDoNoHarm : Obligations.TicksInsideSetDisplayDoNoHarm := by
  intro s b n rest h hfree hinputs
  have htinv : (queueOps (setDisplayOps (boolPayload b)) s).Inv := inv_queueOps h (rowsOk_setDisplayOps _ _)
  have hpending : (queueOps (setDisplayOps (boolPayload b)) s).host.pending = setDisplayOps (boolPayload b) := by
    simp [hfree]
  have hread := step_go_op htinv.legal htinv.no_pending_tick hpending rfl hinputs
  have hinv := stepKeepsTheInvariant _ _ htinv hread
  obtain ⟨u, hticks, huinputs, hposition, -⟩ := ticksGoRoundThePositions n _ (.go :: rest) hinv rfl
  obtain ⟨huinv, hkept⟩ := keptByTicks_of_runSteps hinv rfl hticks
  have hwrite := step_go_op huinv.legal huinv.no_pending_tick (congrArg HostEnv.pending hkept.host) rfl huinputs
  rw [exec_wrCtrl, hkept.hpRdata] at hwrite
  have hrun := (runSteps_next hread).trans ((runSteps_add 1 hticks).trans (runSteps_one hwrite))
  refine ⟨_, _, rfl, hrun, (dataBit0_setDisplay _ _).trans (boolPayload_eq b), ?_, hkept.stage, hkept.scrollIdx, ?_,
    rfl, hposition⟩
  · exact (congrArg (fun c : Config => c.hasDirectAnim && _) hkept.cfg).trans (src_writeCtrlFlags_setDisplay h _)
  · change { u.host with pending := [] } = s.host
    rw [hkept.host, ← hfree]
    rfl

end Sys2Proof.Machine

/-! Proofs of 40_host_port_ops: what the reads return, what each write changes and which addresses see it, and the runs of
several host-port operations: write and read back, a whole turn of the index, one plotted pixel. -/

namespace Sys2Proof.Machine

/-! What the reads return. -/

/-- `CTRL` as a number: `SRC` in bit 1, `DISP_EN` in bit 0 (40 R123). -/
theorem toNat_ctrlWord (s : State) : (ctrlWord s).toNat = 2 * s.src.toNat + s.dispEn.toNat := by
  cases hsrc : s.src <;> cases hdisp : s.dispEn <;> simp [ctrlWord, bitWord, hsrc, hdisp]

/-- `COMMIT` as a number (40 R125). -/
theorem toNat_commitWord (s : State) : (commitWord s).toNat = s.creq.toNat := by
  cases hcreq : s.creq <;> simp [commitWord, bitWord, hcreq]

/-- An index of 16 bits is read as it is (40 R127). -/
theorem toNat_scrollWord {s : State} (h : s.scrollIdx < 2 ^ 16) : (scrollWord s).toNat = s.scrollIdx := by
  rw [scrollWord, if_pos h, BitVec.toNat_ofNat, Nat.mod_eq_of_lt h]

/-- Settles O22: each read answers its register in `hp_rdata`. -/
theorem readsReturnTheirRegister : Obligations.ReadsReturnTheirRegister :=
  fun s r a =>
    ⟨⟨_, exec_rdCtrl s, toNat_ctrlWord s⟩, ⟨_, exec_rdCommit s, toNat_commitWord s⟩,
      ⟨_, exec_rdScroll s, toNat_scrollWord⟩, exec_rdStage r s, exec_rdVrow r s, exec_rdZero a s⟩

/-! What each write changes. -/

/-- Two states with one configuration read the same at an address when the register that the map puts there is the same
(20_memory R62). -/
theorem portRead_congr {s t : State} {a : Addr} (hcfg : t.cfg = s.cfg)
    (hctrl : a.toNat = 0x00 → ctrlWord t = ctrlWord s)
    (hcommit : a.toNat = 0x01 → commitWord t = commitWord s)
    (hscroll : a.toNat = 0x02 → scrollWord t = scrollWord s)
    (hstage : 0x10 ≤ a.toNat → stageRow t (a.toNat - 0x10) = stageRow s (a.toNat - 0x10))
    (hvrow : 0x20 ≤ a.toNat → a.toNat < 0x20 + s.cfg.geo.h →
      visibleRow t (a.toNat - 0x20) = visibleRow s (a.toNat - 0x20)) :
    portRead t a = portRead s a := by
  simp only [portRead, hcfg]
  split_ifs with h0 h1 h2 hin10 hin20
  · exact hctrl h0
  · exact hcommit h1
  · exact hscroll h2
  · exact hstage (inWindow_iff.mp hin10).1
  · obtain ⟨hge, hlt⟩ := inWindow_iff.mp hin20
    exact hvrow hge hlt
  · rfl

/-- A row of a surface after one of its rows was written. -/
theorem getD_set {l : List Word} {r : Nat} (hr : r < l.length) (v : Word) (y : Nat) :
    (l.set r v).getD y 0 = if y = r then v else l.getD y 0 := by
  simp only [List.getD_eq_getElem?_getD, List.getElem?_set, eq_comm (a := r)]
  by_cases hy : y = r
  · simp [hy, hr]
  · simp [hy]

/-- A row of `STAGE` after a write of `STAGE` (40 R120). -/
theorem stageRow_setStageRow {s : State} {r : Nat} (hr : r < s.stage.length) (d : Word) (y : Nat) :
    stageRow (setStageRow r d s) y = if y = r then rowData s.cfg.geo d else stageRow s y :=
  getD_set hr _ y

/-- A pixel of `STAGE` after a write of `STAGE` (40 R120). -/
theorem pixel_setStageRow {s : State} {r : Nat} (hr : r < s.stage.length) (d : Word) (x y : Nat) :
    pixel (setStageRow r d s).stage x y =
      if y = r then decide (x < s.cfg.geo.w) && d.getLsbD x else pixel s.stage x y := by
  rw [← rowData_getLsbD]
  exact (congrArg (BitVec.getLsbD · x) (stageRow_setStageRow hr d y)).trans (apply_ite (BitVec.getLsbD · x) _ _ _)

/-- A write of `STAGE` is seen at the address of its row only (40 R120). -/
theorem portRead_setStageRow {s : State} {r : Nat} (hr : r < s.stage.length) (d : Word) {a : Addr}
    (ha : a.toNat ≠ 0x10 + r) : portRead (setStageRow r d s) a = portRead s a := by
  have hother (hge : 0x10 ≤ a.toNat) :
      stageRow (setStageRow r d s) (a.toNat - 0x10) = stageRow s (a.toNat - 0x10) := by
    rw [stageRow_setStageRow hr, if_neg (by omega)]
  exact portRead_congr rfl (fun _ => rfl) (fun _ => rfl) (fun _ => rfl) hother fun _ _ => rfl

/-- A write of `CTRL` is seen at its own address only (40 R122). -/
theorem portRead_writeCtrlFlags (s : State) (d : Word) {a : Addr} (ha : a.toNat ≠ 0x00) :
    portRead (writeCtrlFlags d s) a = portRead s a :=
  portRead_congr rfl (fun h => absurd h ha) (fun _ => rfl) (fun _ => rfl) (fun _ => rfl) fun _ _ => rfl

/-- A write of `COMMIT` is seen at its own address only (40 R124). -/
theorem portRead_requestCommit (s : State) (d : Word) {a : Addr} (ha : a.toNat ≠ 0x01) :
    portRead (requestCommit d s) a = portRead s a :=
  portRead_congr rfl (fun _ => rfl) (fun h => absurd h ha) (fun _ => rfl) (fun _ => rfl) fun _ _ => rfl

/-- An advance of the index is seen at SCROLL and in the VROW window only (40 R126). -/
theorem portRead_advanceIndex (s : State) {a : Addr} (ha : a.toNat ≠ 0x02)
    (hvrow : ¬ (0x20 ≤ a.toNat ∧ a.toNat < 0x20 + s.cfg.geo.h)) : portRead (advanceIndex s) a = portRead s a :=
  portRead_congr rfl (fun _ => rfl) (fun _ => rfl) (fun h => absurd h ha) (fun _ => rfl)
    fun hge hlt => absurd ⟨hge, hlt⟩ hvrow

/-- Settles O17: the write sets one row of the list of rows. -/
theorem wrStageWritesOneRow : Obligations.WrStageWritesOneRow := by
  intro s r data hlength hr
  have hin : r.toNat < s.stage.length := hlength ▸ hr
  refine ⟨setStageRow r.toNat data s, exec_wrStage r data s, fun x => ?_, fun y hy => ?_, List.length_set,
    fun a ha => portRead_setStageRow hin data ha, rfl⟩
  · rw [pixel_setStageRow hin, if_pos rfl]
  · exact (stageRow_setStageRow hin data y).trans (if_neg hy)

/-- Settles O18: `writeCtrlFlags` writes the two flags, and `OE_N` is computed from one of them. -/
theorem wrCtrlWritesBothFlags : Obligations.WrCtrlWritesBothFlags :=
  fun s data =>
    ⟨writeCtrlFlags data s, exec_wrCtrl data s, rfl, rfl, rfl, fun _ => portRead_writeCtrlFlags s data, rfl⟩

/-- A write of `COMMIT` with data bit 0 clear has no effect (42_commit R176). -/
theorem requestCommit_of_clear {s : State} {d : Word} (h : d.getLsbD 0 = false) : requestCommit d s = s := by
  rw [requestCommit, dataBit0, h, Bool.or_false]

/-- A second request changes nothing (42_commit R176). -/
theorem requestCommit_requestCommit (s : State) (d : Word) :
    requestCommit d (requestCommit d s) = requestCommit d s := by
  simp [requestCommit]

/-- Settles O19, by the two values of data bit 0. -/
theorem wrCommitOnlySetsTheRequest : Obligations.WrCommitOnlySetsTheRequest := by
  intro s data
  refine ⟨requestCommit data s, exec_wrCommit data s, fun hset => ⟨?_, ?_⟩, requestCommit_of_clear,
    fun a => portRead_requestCommit s data, rfl⟩
  · rw [requestCommit_creq, dataBit0, hset, Bool.or_true]
  · rw [exec_wrCommit, requestCommit_requestCommit]

/-- Settles O20: the index is counted modulo `SW`. -/
theorem wrScrollAdvancesTheIndex : Obligations.WrScrollAdvancesTheIndex := by
  intro s data
  refine ⟨advanceIndex s, exec_wrScroll data s, rfl, fun hlt => Nat.mod_eq_of_lt hlt, fun hend => ?_,
    fun a => portRead_advanceIndex s, rfl⟩
  rw [advanceIndex_scrollIdx, hend, Nat.mod_self]

/-- Settles O21: each of these operations answers the state it was given. -/
theorem ignoredOperationsChangeNothing : Obligations.IgnoredOperationsChangeNothing :=
  fun s a data op payload =>
    ⟨exec_wrIgnored a data s, exec_unknownCommand op payload s, exec_setDisplay_none s, exec_setScrollSpeed_none s,
      exec_setDisplayMode_none s⟩

/-! What no host-port word reaches. -/

/-- A host-port word leaves `TICK_PEND` and the configuration, and moves the index by one or not at all. -/
theorem exec_decodeWord_index {g : Geometry} {s t : State} {w : Trans} (ht : exec (decodeWord g w) s = .next t) :
    t.tickPend = s.tickPend ∧ t.cfg = s.cfg ∧
      (t.scrollIdx = s.scrollIdx ∨ t.scrollIdx = (s.scrollIdx + 1) % s.cfg.sw) := by
  rw [decodeWord, decodeWrite_eq, decodeRead_eq] at ht
  -- Of the eleven rows of the map only the third, `WR_SCROLL`, moves the index.
  split_ifs at ht <;> cases ht
  · exact ⟨rfl, rfl, .inl rfl⟩
  · exact ⟨rfl, rfl, .inl rfl⟩
  · exact ⟨rfl, rfl, .inr rfl⟩
  all_goals exact ⟨rfl, rfl, .inl rfl⟩

/-- Settles O25: a word is no event, so it keeps the scan state; the rest is checked operation by operation. -/
theorem hostPortCannotReachTheScanState : Obligations.HostPortCannotReachTheScanState := by
  intro s t w ht
  obtain ⟨hactive, hrow, hblank, hpanel, hcreq⟩ := scanKept_exec (isEvent_decodeWord s.cfg.geo w) ht
  obtain ⟨htick, hcfg, hindex⟩ := exec_decodeWord_index ht
  obtain ⟨hinputs, hhost⟩ := exec_decodeWord_queues ht
  exact ⟨hactive, hrow, hblank, hpanel, htick, hcfg, hcreq, hindex, hhost, hinputs⟩

/-! Runs of host-port operations. -/

/-- An operation of the host port at the head of the inputs, in its canonical word, with MainFlow free. -/
theorem step_encoded {s : State} {i : Instr} {w : Trans} {rest : List Input} (h : s.Inv) (hfree : s.host.pending = [])
    (hw : encode i = .word w) (hi : i.wellFormed s.cfg.geo = true) (hinputs : s.inputs = .op (encode i) :: rest) :
    step s = exec i { s with inputs := rest } := by
  have hdecode : decodeWord s.cfg.geo w = i := by
    have hround := decodeEncodeRoundTrip s.cfg.geo i hi
    rw [hw] at hround
    exact Except.ok.inj hround
  rw [step_word h.legal h.no_pending_tick hfree (hw ▸ hinputs), hdecode]

/-- The value of a row word: the data modulo `2^W` (20_memory R68). -/
theorem toNat_rowData (g : Geometry) (d : Word) : (rowData g d).toNat = d.toNat % 2 ^ g.w := by
  have hones : (ones g.w).toNat = 2 ^ g.w - 1 := by cases g <;> rfl
  rw [rowData, BitVec.toNat_and, hones, Nat.and_two_pow_sub_one_eq_mod]

/-- Settles O24: the write is one step, the read is the next, and the row read is the row written. -/
theorem stageReadsBackWhatWasWritten : Obligations.StageReadsBackWhatWasWritten := by
  intro s r data rest h hfree hr hinputs
  have hrow : r.toNat < s.stage.length := h.stage_length ▸ hr
  have hwrite := step_encoded (i := .wrStage r data) h hfree rfl (decide_eq_true hr) hinputs
  have hread := step_encoded (rest := rest) (stepKeepsTheInvariant _ _ h hwrite) hfree (i := .rdStage r) rfl
    (decide_eq_true hr) rfl
  refine ⟨_, (runSteps_next hwrite).trans (runSteps_one hread), rfl, ?_, rfl, rfl⟩
  rw [setRdata_hpRdata, ← toNat_rowData]
  exact congrArg BitVec.toNat ((stageRow_setStageRow hrow data r.toNat).trans (if_pos rfl))

/-- `n` advances move the index by `n` modulo `SW` and change nothing else (40 R126). -/
theorem runSteps_advances {s : State} (n : Nat) {data : Word} {rest : List Input} (h : s.Inv)
    (hfree : s.host.pending = [])
    (hinputs : s.inputs = List.replicate n (.op (.word (mkTrans true 0x02#8 data))) ++ rest) :
    runSteps n s = .next { s with inputs := rest, scrollIdx := (s.scrollIdx + n) % s.cfg.sw } := by
  induction n generalizing s with
  | zero =>
    have hrest : rest = s.inputs := hinputs.symm
    rw [hrest, Nat.add_zero, Nat.mod_eq_of_lt h.scroll_lt]
    rfl
  | succ n ih =>
    rw [List.replicate_succ, List.cons_append] at hinputs
    have hstep := step_encoded (i := .wrScroll data) h hfree rfl rfl hinputs
    have hindex : ((s.scrollIdx + 1) % s.cfg.sw + n) % s.cfg.sw = (s.scrollIdx + (n + 1)) % s.cfg.sw := by
      rw [Nat.mod_add_mod, Nat.add_right_comm, Nat.add_assoc]
    rw [runSteps_next hstep, ih (stepKeepsTheInvariant _ _ h hstep) hfree rfl, ← hindex]
    rfl

/-- Settles O26: `SW` more is the same modulo `SW`. -/
theorem scrollReturnsAfterSwAdvances : Obligations.ScrollReturnsAfterSwAdvances := by
  intro s data rest h hfree hinputs
  rw [runSteps_advances _ h hfree hinputs, Nat.add_mod_right, Nat.mod_eq_of_lt h.scroll_lt]

/-! Plotting (30_encoding R101, 40 R130). -/

/-- A row that a routine reads and writes back: two steps of MainFlow, with no input between them. -/
theorem runSteps_readWriteBack {s : State} {r : RowIx} {keep set : Word} {ops : List MainOp}
    (hl : legalConfig s.cfg = true) (hp : s.tickPend = false) (hinputs : s.inputs = [])
    (hpending : s.host.pending = .rdStage r :: .wrStageBack r keep set :: ops) :
    runSteps 2 s = .next (setStageRow r.toNat ((stageRow s r.toNat &&& keep) ||| set)
      (setRdata (stageRow s r.toNat) { s with host.pending := ops })) := by
  have hread := (routineIsTakenOneOperationAStep s _ _ _ hl hp hpending rfl).1 hinputs
  rw [exec_rdStage] at hread
  have hwrite := (routineIsTakenOneOperationAStep 
    (setRdata (stageRow s r.toNat) { s with host.pending := .wrStageBack r keep set :: ops }) _ _ _ hl hp rfl rfl).1
    hinputs
  exact (runSteps_next hread).trans (runSteps_one hwrite)

/-- Bit `i` of a word with the one bit `x`. -/
theorem getLsbD_one_shiftLeft (x i : Nat) : (1#16 <<< x).getLsbD i = (decide (x < 16) && decide (x = i)) := by
  rw [← BitVec.twoPow_eq, BitVec.getLsbD_twoPow]

/-- Inside the surface `PLOT` reads the row of the pixel and writes it back, with the pixel's bit made the colour. -/
theorem exists_plotOps_eq {g : Geometry} {x y : Nat} (hx : x < g.w) (hy : y < g.h) (c : Bool) :
    ∃ keep set : Word, plotOps g c (x, y) = [.rdStage (rowIx y), .wrStageBack (rowIx y) keep set] ∧
      ∀ (v : Word) (i : Nat), i < g.w → ((v &&& keep) ||| set).getLsbD i = if i = x then c else v.getLsbD i := by
  have hinside : (0 : Int) ≤ x ∧ (x : Int) < g.w ∧ (0 : Int) ≤ y ∧ (y : Int) < g.h := by omega
  have hw := w_le_16 g
  have hx16 : x < 16 := by omega
  rw [plotOps, if_pos hinside]
  cases c with
  | true =>
    refine ⟨_, _, rfl, fun v i hi => ?_⟩
    have hall : (0xFFFF#16).getLsbD i = true := (BitVec.getLsbD_allOnes (v := 16)).trans (decide_eq_true (by omega))
    rw [BitVec.getLsbD_or, BitVec.getLsbD_and, hall, Int.toNat_natCast, getLsbD_one_shiftLeft]
    by_cases hix : i = x <;> simp [hix, hx16, eq_comm (a := x)]
  | false =>
    refine ⟨_, _, rfl, fun v i hi => ?_⟩
    rw [BitVec.getLsbD_or, BitVec.getLsbD_and, compl_getLsbD hw, Int.toNat_natCast, getLsbD_one_shiftLeft]
    by_cases hix : i = x <;> simp [hix, hx, hi, hx16, eq_comm (a := x)]

/-- Outside the surface `PLOT` issues nothing. -/
theorem plotOps_of_outside {g : Geometry} {x y : Int} (h : ¬ (0 ≤ x ∧ x < g.w ∧ 0 ≤ y ∧ y < g.h)) (c : Bool) :
    plotOps g c (x, y) = [] := if_neg h

theorem toNat_rowIx {g : Geometry} {y : Nat} (hy : y < g.h) : (rowIx y).toNat = y := by
  have hw : g.h ≤ 16 := w_le_16 g
  rw [rowIx, BitVec.toNat_ofNat, Nat.mod_eq_of_lt (by omega)]

/-- Settles O58: inside the surface the row is read and written back with one bit changed, outside nothing is run. -/
theorem plotWritesOnePixelAndClips : Obligations.PlotWritesOnePixelAndClips := by
  intro s x y c h hinputs hpending
  by_cases hinside : 0 ≤ x ∧ x < s.cfg.geo.w ∧ 0 ≤ y ∧ y < s.cfg.geo.h
  · obtain ⟨hx0, hx, hy0, hy⟩ := hinside
    lift x to Nat using hx0
    lift y to Nat using hy0
    norm_cast at hx hy
    obtain ⟨keep, set, hops, hbits⟩ := exists_plotOps_eq hx hy c
    have hrun := runSteps_readWriteBack h.legal h.no_pending_tick hinputs (hpending.trans hops)
    have hlength : s.host.pending.length = 2 := congrArg List.length (hpending.trans hops)
    rw [toNat_rowIx hy, ← hlength] at hrun
    have hrow : y < s.stage.length := h.stage_length ▸ hy
    refine ⟨_, hrun, rfl, fun i j hi hj => ?_, fun hout => by omega⟩
    refine (pixel_setStageRow hrow _ i j).trans ?_
    rw [hbits _ _ hi]
    by_cases hjy : j = y
    · simp [hjy, hi, pixel, stageRow]
    · simp [hjy, pixel]
  · have hnone := hpending.trans (plotOps_of_outside hinside c)
    refine ⟨s, by rw [hnone]; rfl, rfl, fun i j hi hj => ?_, fun _ => rfl⟩
    rw [if_neg (by omega)]

end Sys2Proof.Machine

/-! Proofs of 41_refresh_tick: what a tick writes, field by field, what it latches, and what steers it. -/

namespace Sys2Proof.Machine

/-! The fields that a tick writes. -/

@[simp] theorem tickBody_row (s : State) :
    (tickBody s).row = if s.blank = 0 then (s.row + 1) % s.cfg.geo.h else s.row := by
  rw [tickBody_eq, advanceSequencer_row]

@[simp] theorem tickBody_blank (s : State) :
    (tickBody s).blank = if s.blank = 0 then s.cfg.b else s.blank - 1 := by
  rw [tickBody_eq, advanceSequencer_blank]

@[simp] theorem tickBody_active (s : State) :
    (tickBody s).active = if copies s then s.stage else s.active := by rw [tickBody_eq]

@[simp] theorem tickBody_creq (s : State) : (tickBody s).creq = if copies s then false else s.creq := by
  rw [tickBody_eq]

/-- The panel side after a tick depends on the two codes alone (41_refresh_tick R146, R147). -/
theorem tickBody_panel (s : State) :
    (tickBody s).panel =
      { sr := chainOf s.cfg.geo (dataCode s) (selectCode s)
        q := chainOf s.cfg.geo (dataCode s) (selectCode s)
        ser := (selectCode s).getLsbD 0
        sclk := false
        latch := true } := by
  rw [tickBody_eq, presentRow_eq]

/-- What the test of step 4 reads: `ROW`, `BLANK`, `CREQ` and the configuration (41_refresh_tick R149). -/
theorem copies_eq (s : State) :
    copies s = ((if s.blank = 0 then (s.row + 1) % s.cfg.geo.h else s.row) == 0 &&
      (if s.blank = 0 then s.cfg.b else s.blank - 1) == s.cfg.b && s.creq) := by
  rw [copies, safeInstant, advanceSequencer_row, advanceSequencer_blank, advanceSequencer_cfg]

theorem copies_eq_false_of_creq {s : State} (h : s.creq = false) : copies s = false := by
  rw [copies, h, Bool.and_false]

/-- A request that still stands after a tick was not served by it. -/
theorem copies_eq_false_of_tickBody_creq {s : State} (h : (tickBody s).creq = true) : copies s = false := by
  cases hcopies : copies s with
  | false => rfl
  | true => simp [hcopies] at h

/-- A tick that does not copy does not read `STAGE` (41_refresh_tick R154). -/
theorem tickBody_withStage {s : State} (h : copies s = false) (other : List Word) :
    tickBody { s with stage := other } = { tickBody s with stage := other } := by
  have hother : copies { s with stage := other } = false := by rwa [copies_eq, ← copies_eq s]
  rw [tickBody_eq, tickBody_eq s, hother, h, advanceSequencer_eq, advanceSequencer_eq s]
  rfl

/-! The codes. -/

/-- Blanking in progress, or the display disabled (41_refresh_tick R141). -/
theorem dark_iff (s : State) : dark s = true ↔ 0 < s.blank ∨ s.dispEn = false := by simp [dark]

theorem dataCode_of_dark {s : State} (h : dark s = true) : dataCode s = ones s.cfg.geo.w := if_pos h

theorem selectCode_of_dark {s : State} (h : dark s = true) : selectCode s = ones s.cfg.geo.w := if_pos h

/-- A selected row line is the line of `ROW` on a lit tick (41_refresh_tick R144). -/
theorem selectCode_getLsbD_eq_false_iff (s : State) {y : Nat} (hy : y < s.cfg.geo.w) :
    (selectCode s).getLsbD y = false ↔ dark s = false ∧ y = s.row := by
  simp [selectCode_getLsbD, hy]

/-- With `ROW` on the panel, a select word that selects nothing is that of a dark tick. -/
theorem dark_of_selectCode_eq_ones {s : State} (hrow : s.row < s.cfg.geo.w)
    (h : selectCode s = ones s.cfg.geo.w) : dark s = true := by
  have hbit : (selectCode s).getLsbD s.row = true := by
    rw [h, ones_getLsbD (w_le_16 _), decide_eq_true hrow]
  rw [selectCode_getLsbD, Bool.and_eq_true, Bool.or_eq_true] at hbit
  simpa using hbit.2

/-- The all-dark code in both words fills the chain with 1s (41_refresh_tick R145). -/
theorem chainOf_ones (g : Geometry) : chainOf g (ones g.w) (ones g.w) = chainOnes g := by
  cases g <;> decide

/-- Every dark tick of a geometry leaves the same panel side (41_refresh_tick R145). -/
theorem tickBody_panel_of_dark {s : State} (h : dark s = true) :
    (tickBody s).panel =
      { sr := chainOnes s.cfg.geo, q := chainOnes s.cfg.geo, ser := true, sclk := false, latch := true } := by
  have hser : (ones s.cfg.geo.w).getLsbD 0 = true := by
    rw [ones_getLsbD (w_le_16 _), decide_eq_true (w_pos _)]
  rw [tickBody_panel, dataCode_of_dark h, selectCode_of_dark h, chainOf_ones, hser]

/-! The obligations. -/

/-- Settles O27: the two cases of the sequencer's step. -/
theorem tickAdvancesTheSequencer : Obligations.TickAdvancesTheSequencer :=
  fun s => ⟨tickBody (enterTick s), exec_tick s,
    fun h => ⟨(tickBody_row _).trans (if_pos h), (tickBody_blank _).trans (if_pos h)⟩,
    fun h => ⟨(tickBody_row _).trans (if_neg h.ne'), (tickBody_blank _).trans (if_neg h.ne')⟩⟩

/-- Settles O30: what is latched are the two codes of the state the tick entered with, read bit by bit. -/
theorem tickLatchesItsCodes : Obligations.TickLatchesItsCodes := by
  intro s
  have hdata : (tickBody (enterTick s)).panel.qData s.cfg.geo = dataCode s := qData_tickBody (enterTick s)
  have hsel : (tickBody (enterTick s)).panel.qSel s.cfg.geo = selectCode s := qSel_tickBody (enterTick s)
  have hpanel := tickBody_panel (enterTick s)
  refine ⟨tickBody (enterTick s), exec_tick s, fun hoff x hx => ?_, fun hblank hon x hx => ?_, ?_⟩
  · have hdark := (dark_iff s).mpr hoff
    rw [hdata, hsel, dataCode_getLsbD, selectCode_getLsbD, hdark]
    simp [hx]
  · have hlit := (dark_eq_false_iff s).mpr ⟨hon, hblank⟩
    rw [hdata, hsel, dataCode_getLsbD, selectCode_getLsbD, hlit, decide_eq_true hx]
    exact ⟨rfl, rfl⟩
  · rw [hsel, hpanel]
    exact ⟨rfl, chainOf_lt (dataCode_lt s) (selectCode_lt s), rfl, rfl, rfl⟩

/-- Settles O31: both ticks are dark, and every dark tick leaves the same panel side. -/
theorem darkTickSendsTheAllDarkCode : Obligations.DarkTickSendsTheAllDarkCode := by
  intro s other hoff
  have hdark := (dark_iff s).mpr hoff
  have ht := tickBody_panel_of_dark (s := enterTick s) hdark
  have hu := tickBody_panel_of_dark (s := enterTick { s with active := other }) hdark
  refine ⟨_, _, exec_tick s, exec_tick _, ?_, hu.trans ht.symm⟩
  rw [ht, enterTick_cfg]
  cases s.cfg.geo <;> rfl

/-- Settles O33: the fields that a tick writes are five, and `STAGE` shows in none of them unless it copies. -/
theorem tickFrame : Obligations.TickFrame := by
  intro s
  have hkept := keptByTicks_tickBody (enterTick s) s.inputs
  have hstage (hcopies : copies (enterTick s) = false) (other : List Word) :
      exec .tick { s with stage := other } = .next { tickBody (enterTick s) with stage := other } :=
    congrArg _ (tickBody_withStage hcopies other)
  refine ⟨tickBody (enterTick s), exec_tick s, hkept.stage, hkept.dispEn, hkept.src, hkept.scrollIdx, hkept.cfg,
    fun hcreq => ?_, ?_, fun _ hstands => hstage (copies_eq_false_of_tickBody_creq hstands),
    fun hcreq => hstage (copies_eq_false_of_creq hcreq), hkept.hpRdata, hkept.host, ?_⟩
  · rw [tickBody_creq, enterTick_creq, hcreq, ite_self]
  · rw [tickBody_active]
    exact (ite_eq_or_eq _ _ _).symm
  · rw [tickBody_eq]
    exact ⟨rfl, rfl, rfl, rfl, rfl, rfl⟩

/-- Settles O34: the ranges are the invariant's, and the select word has a 0 bit on a lit tick only, at `ROW`. -/
theorem tickKeepsItsInvariants : Obligations.TickKeepsItsInvariants := by
  intro s t h ht
  cases ht
  let u := enterTick s
  have hinv : (tickBody u).Inv := inv_tickBody { h with no_pending_tick := rfl }
  have hcfg : (tickBody u).cfg = s.cfg := (keptByTicks_tickBody u u.inputs).cfg
  have hdata : (tickBody u).panel.qData s.cfg.geo = dataCode s := qData_tickBody u
  have hsel : (tickBody u).panel.qSel s.cfg.geo = selectCode s := qSel_tickBody u
  refine ⟨hcfg ▸ hinv.row_lt, hcfg ▸ hinv.blank_le, fun y z hy hz hy0 hz0 => ?_, fun hones => ?_, ?_⟩
  · obtain ⟨-, hyrow⟩ := (selectCode_getLsbD_eq_false_iff s hy).mp (hsel ▸ hy0)
    obtain ⟨-, hzrow⟩ := (selectCode_getLsbD_eq_false_iff s hz).mp (hsel ▸ hz0)
    exact hyrow.trans hzrow.symm
  · have hdark := dark_of_selectCode_eq_ones h.row_lt (hsel.symm.trans hones)
    exact hdata.trans (dataCode_of_dark hdark)
  · exact (tickBody_active_cases u).imp_right fun ⟨_, _, hactive, _⟩ => hactive

/-- Settles O37: neither the sequencer's step nor the test of step 4 reads `DISP_EN`, `SRC` or the index. -/
theorem displayEnableDoesNotSteerTheScan : Obligations.DisplayEnableDoesNotSteerTheScan := by
  intro s en sr idx
  let u := enterTick s
  let v := enterTick { s with dispEn := en, src := sr, scrollIdx := idx }
  have hcopies : copies v = copies u := (copies_eq v).trans (copies_eq u).symm
  have hstage (w : State) : (tickBody w).stage = w.stage := (keptByTicks_tickBody w w.inputs).stage
  refine ⟨tickBody u, tickBody v, exec_tick s, exec_tick _, (tickBody_row v).trans (tickBody_row u).symm,
    (tickBody_blank v).trans (tickBody_blank u).symm, ?_, ?_, (hstage v).trans (hstage u).symm⟩
  · rw [tickBody_active, tickBody_active, hcopies]
    rfl
  · rw [tickBody_creq, tickBody_creq, hcopies]
    rfl

end Sys2Proof.Machine

/-! Proofs of 42_commit_handshake: the copy and the safe instant in one tick, what can clear a request, and what
`ACTIVE` can be along a run. -/

namespace Sys2Proof.Machine

/-! The safe instant. -/

/-- The test of step 4, read on the position that the tick leaves (42_commit R172). -/
theorem copies_iff_tickBody (s : State) :
    copies s = true ↔ (tickBody s).row = 0 ∧ (tickBody s).blank = s.cfg.b ∧ s.creq = true := by
  rw [copies_eq, tickBody_row, tickBody_blank, Bool.and_eq_true, Bool.and_eq_true, beq_iff_eq, beq_iff_eq, and_assoc]

/-- Settles O28: the tick copies exactly when the test of step 4 succeeds. -/
theorem tickCopiesExactlyAtTheSafeInstant : Obligations.TickCopiesExactlyAtTheSafeInstant := by
  intro s
  let u := enterTick s
  refine ⟨tickBody u, exec_tick s, fun hrow hblank hcreq => ?_, fun hnot => ?_⟩
  · obtain ⟨hactive, hclear, -⟩ := tickBody_of_copies ((copies_iff_tickBody u).mpr ⟨hrow, hblank, hcreq⟩)
    exact ⟨hactive, hclear⟩
  · have hcopies : ¬ copies u = true := fun h => hnot ((copies_iff_tickBody u).mp h)
    exact ⟨(tickBody_active u).trans (if_neg hcopies), (tickBody_creq u).trans (if_neg hcopies)⟩

/-- `ROW` steps to 0 from the last row only (41_refresh_tick R148). -/
theorem succ_mod_eq_zero_iff {r h : Nat} (hr : r < h) : (r + 1) % h = 0 ↔ r = h - 1 := by
  rcases Nat.lt_or_ge (r + 1) h with hin | hend
  · rw [Nat.mod_eq_of_lt hin]
    omega
  · have hlast : r + 1 = h := by omega
    rw [hlast, Nat.mod_self]
    omega

/-- Settles O29: at `BLANK = 0` the tick reloads `BLANK` and steps `ROW`; from any other position it leaves a `BLANK`
below `B`. -/
theorem safeInstantEndsThePass : Obligations.SafeInstantEndsThePass := by
  intro s t h ht
  cases ht
  let u := enterTick s
  change (tickBody u).row = 0 ∧ (tickBody u).blank = s.cfg.b ↔ _
  rcases Nat.eq_zero_or_pos s.blank with hzero | hpos
  · have hrow : (tickBody u).row = (s.row + 1) % s.cfg.geo.h := (tickBody_row u).trans (if_pos hzero)
    have hblank : (tickBody u).blank = s.cfg.b := (tickBody_blank u).trans (if_pos hzero)
    rw [hrow, succ_mod_eq_zero_iff h.row_lt]
    exact and_congr_right fun _ => iff_of_true hblank hzero
  · have hblank : (tickBody u).blank = s.blank - 1 := (tickBody_blank u).trans (if_neg hpos.ne')
    have hle := h.blank_le
    rw [hblank]
    omega

/-! What clears a request. -/

/-- A tick that finds a request leaves it, or copies (42_commit R177). -/
theorem tickBody_creq_or_copies {s : State} (h : s.creq = true) : (tickBody s).creq = true ∨ copies s = true := by
  cases hcopies : copies s with
  | true => exact .inr rfl
  | false => exact .inl (by rw [tickBody_creq, hcopies]; exact h)

/-- Settles O41: a step that is neither reset nor a tick keeps a request, and a tick that does not keep it copies. -/
theorem noCommitRequestIsLost : Obligations.NoCommitRequestIsLost := by
  intro s t hstep hcreq hnorst
  rcases step_scan_cases hstep with ⟨hrst, -⟩ | ⟨l, rfl⟩ | hkept
  · exact absurd hrst hnorst
  · let u : State := { s with inputs := l, tickPend := false }
    refine (tickBody_creq_or_copies (s := u) hcreq).imp_right fun hcopies => ?_
    obtain ⟨hactive, -, hrow, hblank⟩ := tickBody_of_copies hcopies
    exact ⟨hactive, hrow, hblank⟩
  · exact .inl (hkept.creq hcreq)

/-! The inputs along a run: a step takes at most the first one, and none is ever added. -/

/-- No operation touches the inputs to come. -/
theorem exec_inputs {s t : State} {i : Instr} (ht : exec i s = .next t) : t.inputs = s.inputs := by
  cases i with
  | tick => cases ht; rw [leaveTick_inputs, tickBody_eq, enterTick_inputs]
  | setDisplay b => cases b <;> cases ht <;> rfl
  | setScrollSpeed b => cases b <;> cases ht <;> rfl
  | setDisplayMode b =>
    cases b with
    | none => cases ht; rfl
    | some v =>
      rw [exec_setDisplayMode_some] at ht
      split at ht <;> cases ht <;> rfl
  | _ => cases ht; rfl

theorem hostUpdate_inputs (op : MainOp) (s : State) : (hostUpdate op s).inputs = s.inputs := by
  unfold hostUpdate
  split <;> rfl

theorem mainStep_inputs {s t : State} (h : mainStep s = .next t) : t.inputs = s.inputs := by
  cases hp : s.host.pending with
  | nil => rw [mainStep_idle hp] at h; cases h; rfl
  | cons op rest =>
    cases hi : op.toInstr s.hpRdata with
    | some i => rw [mainStep_op hp hi] at h; exact (exec_inputs h).trans rfl
    | none => rw [mainStep_update hp hi] at h; cases h; exact hostUpdate_inputs op _

theorem runForm_inputs {f : Form} {s t : State} (h : runForm f s = .next t) : t.inputs = s.inputs := by
  unfold runForm at h
  split at h
  · exact exec_inputs h
  · cases h; rfl

theorem runCycle_inputs {we re : Bool} {a : Addr} {d : Word} {s t : State} (h : runCycle we re a d s = .next t) :
    t.inputs = s.inputs := by
  unfold runCycle at h
  split at h
  · exact runForm_inputs h
  · cases h; rfl

theorem mainLoop_inputs (s : State) : (mainLoop s).inputs = s.inputs := by rw [mainLoop_eq_host]

/-- An input that waits for MainFlow is still there; one that is handled is taken. -/
theorem whenMainFree_inputs_suffix {run : State → Result} {s t : State}
    (hrun : ∀ u v, run u = .next v → v.inputs = u.inputs) (h : whenMainFree run s = .next t) :
    t.inputs <:+ s.inputs := by
  unfold whenMainFree at h
  split at h
  · exact hrun _ _ h ▸ List.tail_suffix _
  · exact mainStep_inputs h ▸ List.suffix_rfl

theorem acceptInput_inputs_suffix {e : Input} {s t : State} (h : acceptInput e s = .next t) :
    t.inputs <:+ s.inputs := by
  have htaken (ht : t.inputs = s.inputs.tail) : t.inputs <:+ s.inputs := ht ▸ List.tail_suffix _
  cases e with
  | op f =>
    cases f with
    | word w => exact whenMainFree_inputs_suffix (fun _ _ => runForm_inputs) h
    | bus bytes => exact whenMainFree_inputs_suffix (fun _ _ => runForm_inputs) h
    | tickReq => exact htaken (runForm_inputs (f := .tickReq) (s := requestTick (takeInput s)) h)
    | rst => exact htaken (runForm_inputs (f := .rst) (s := takeInput s) h)
  | cycle we re a d => exact whenMainFree_inputs_suffix (fun _ _ => runCycle_inputs) h
  | loop =>
    exact whenMainFree_inputs_suffix (run := fun u => .next (mainLoop u))
      (fun u _ hloop => by cases hloop; exact mainLoop_inputs u) h
  | go => exact htaken (mainStep_inputs (s := takeInput s) h)
  | busRead => cases h; exact htaken rfl
  | clock ms => cases h; exact htaken rfl
  | aux level => cases h; exact htaken rfl

theorem step_inputs_suffix {s t : State} (h : step s = .next t) : t.inputs <:+ s.inputs := by
  rw [step_legal (legalConfig_of_step_next h)] at h
  unfold arbitrate at h
  split at h
  · exact acceptInput_inputs_suffix h
  · split at h
    · exact exec_inputs h ▸ List.suffix_rfl
    · exact mainStep_inputs h ▸ List.suffix_rfl
  · split at h
    · exact exec_inputs h ▸ List.suffix_rfl
    · exact acceptInput_inputs_suffix h

/-- A run of `n + 1` steps that answers is a step that answers and a run of `n`. -/
theorem exists_step_of_runSteps_succ {n : Nat} {s t : State} (h : runSteps (n + 1) s = .next t) :
    ∃ v, step s = .next v ∧ runSteps n v = .next t := by
  cases hs : step s with
  | next v => exact ⟨v, rfl, (runSteps_next hs).symm.trans h⟩
  | fault r => cases r
  | refused r => rw [runSteps, hs] at h; cases h

/-! Tear-freedom. -/

/-- Settles O40, by induction on the number of steps: what the rest of the run keeps is what its first step left, and
that is the surface at the start or the whole of `STAGE` there. -/
theorem activeIsAlwaysOneCommittedFrame : Obligations.ActiveIsAlwaysOneCommittedFrame := by
  intro n
  induction n with
  | zero =>
    intro s t _ hrun
    cases hrun
    exact .inl rfl
  | succ n ih =>
    intro s t hnorst hrun
    obtain ⟨v, hstep, hrest⟩ := exists_step_of_runSteps_succ hrun
    have hv : ∀ e ∈ v.inputs, e ≠ .op .rst := fun e he => hnorst e ((step_inputs_suffix hstep).subset he)
    rcases ih v t hv hrest with hkept | ⟨m, u, hm, hu, hcreq, hactive⟩
    · rcases activeChangesOnlyByAWholeCopy s v hstep with hfirst | ⟨hcreq, -, hcopy, -⟩ | ⟨hrst, -⟩
      · exact .inl (hkept.trans hfirst)
      · exact .inr ⟨0, s, Nat.succ_pos n, runSteps_zero s, hcreq, hkept.trans hcopy⟩
      · exact absurd rfl (hnorst _ (List.mem_of_mem_head? hrst))
    · exact .inr ⟨m + 1, u, Nat.succ_lt_succ hm, (runSteps_next hstep).trans hu, hcreq, hactive⟩

end Sys2Proof.Machine

/-! Proofs of 43_animation_source: the rotation of the inverted pattern row, bit by bit. -/

namespace Sys2Proof.Machine

/-- A pattern row of a legal configuration has `SW` bits (00_scope R8). -/
theorem patternRow_lt {c : Config} (h : legalConfig c = true) (r : Nat) : c.pattern.getD r 0 < 2 ^ c.sw := by
  simp only [legalConfig, Bool.and_eq_true, List.all_eq_true, decide_eq_true_eq] at h
  obtain ⟨⟨⟨⟨⟨-, -, hall⟩, -⟩, -⟩, -⟩, -⟩ := h
  rw [List.getD_eq_getElem?_getD]
  cases hrow : c.pattern[r]? with
  | none => exact Nat.two_pow_pos _
  | some p => exact hall p (List.mem_of_getElem? hrow)

/-- A legal rotation field is wider than the panel (00_scope R8). -/
theorem w_lt_sw {c : Config} (h : legalConfig c = true) : c.geo.w < c.sw := by
  simp only [legalConfig, Bool.and_eq_true, decide_eq_true_eq] at h
  tauto

/-- The complement within `n` bits has `n` bits. -/
theorem inverted_lt (n p : Nat) : 2 ^ n - 1 - p < 2 ^ n :=
  (Nat.sub_le _ _).trans_lt (Nat.sub_lt (Nat.two_pow_pos n) Nat.one_pos)

/-- Bit `i` of the complement within `n` bits. -/
theorem testBit_inverted {n p : Nat} (hp : p < 2 ^ n) (i : Nat) :
    (2 ^ n - 1 - p).testBit i = (decide (i < n) && !p.testBit i) := by
  rw [Nat.sub_sub, Nat.add_comm, Nat.testBit_two_pow_sub_succ hp]

/-- Bit `j` of an `n`-bit value rotated left by `k` within `n` bits is its bit `(j - k) mod n`. From bit `k` up it comes
from the left shift, below it from the right shift. -/
theorem testBit_rotateLeft {n v k j : Nat} (hv : v < 2 ^ n) (hk : k < n) (hj : j < n) :
    ((v <<< k ||| v >>> (n - k)) % 2 ^ n).testBit j = v.testBit ((j + n - k) % n) := by
  rw [Nat.testBit_mod_two_pow, decide_eq_true hj, Bool.true_and, Nat.testBit_or, Nat.testBit_shiftLeft,
    Nat.testBit_shiftRight]
  by_cases hjk : k ≤ j
  · have hsource : (j + n - k) % n = j - k := by
      rw [show j + n - k = j - k + n by omega, Nat.add_mod_right, Nat.mod_eq_of_lt (by omega)]
    have hout : v.testBit (n - k + j) = false :=
      Nat.testBit_lt_two_pow (hv.trans_le (Nat.pow_le_pow_right Nat.two_pos (by omega)))
    rw [hsource, hout, Bool.or_false, decide_eq_true hjk, Bool.true_and]
  · have hsource : (j + n - k) % n = n - k + j := by
      rw [show j + n - k = n - k + j by omega, Nat.mod_eq_of_lt (by omega)]
    rw [hsource, decide_eq_false hjk, Bool.false_and, Bool.false_or]

/-- The visible row is the low `W` bits of the rotated inverted row: the 16-bit word cuts nothing. -/
theorem visibleRowAt_toNat (c : Config) (idx r : Nat) :
    (visibleRowAt c idx r).toNat =
      ((2 ^ c.sw - 1 - c.pattern.getD r 0) <<< idx ||| (2 ^ c.sw - 1 - c.pattern.getD r 0) >>> (c.sw - idx)) %
        2 ^ c.sw % 2 ^ c.geo.w :=
  Nat.mod_eq_of_lt ((Nat.mod_lt _ (Nat.two_pow_pos _)).trans_le (Nat.pow_le_pow_right Nat.two_pos (w_le_16 _)))

/-- Settles O42: the rotation names the source bit of each visible bit, and the inversion complements it. -/
theorem visibleRowRotatesTheInvertedPattern : Obligations.VisibleRowRotatesTheInvertedPattern := by
  intro c idx r j hlegal hidx _
  have hsw := w_lt_sw hlegal
  rw [BitVec.getLsbD, visibleRowAt_toNat, Nat.testBit_mod_two_pow]
  by_cases hj : j < c.geo.w
  · have hinv := inverted_lt c.sw (c.pattern.getD r 0)
    have hsource : (j + c.sw - idx) % c.sw < c.sw := Nat.mod_lt _ (by omega)
    rw [testBit_rotateLeft hinv hidx (hj.trans hsw), testBit_inverted (patternRow_lt hlegal r), decide_eq_true hsource,
      Bool.true_and]
  · rw [decide_eq_false hj, Bool.false_and, Bool.false_and]

/-- The source bit of column `j + 1` at the next index is that of column `j` at this one. -/
theorem sourceBit_advance {n idx : Nat} (h : idx < n) (j : Nat) :
    (j + 1 + n - (idx + 1) % n) % n = (j + n - idx) % n := by
  rcases Nat.lt_or_eq_of_le (Nat.succ_le_of_lt h) with hnext | hwrap
  · rw [Nat.mod_eq_of_lt hnext, Nat.add_right_comm, Nat.add_sub_add_right]
  · subst hwrap
    rw [Nat.mod_self, Nat.sub_zero, Nat.add_mod_right, show j + (idx + 1) - idx = j + 1 by omega]

/-- At index 0 the right shift is by the whole width and the rotation changes nothing (43 R187). -/
theorem visibleRowAt_zero_toNat (c : Config) (r : Nat) :
    (visibleRowAt c 0 r).toNat = (2 ^ c.sw - 1 - c.pattern.getD r 0) % 2 ^ c.geo.w := by
  have hinv := inverted_lt c.sw (c.pattern.getD r 0)
  rw [visibleRowAt_toNat, Nat.shiftLeft_zero, Nat.sub_zero, Nat.shiftRight_eq_zero _ _ hinv, Nat.or_zero,
    Nat.mod_eq_of_lt hinv]

/-- Settles O43: the rotation by 0, and the shared source bit of the two columns. -/
theorem advanceMovesTheVisibleRowOneColumn : Obligations.AdvanceMovesTheVisibleRowOneColumn := by
  intro c idx r j hlegal hidx hr
  refine ⟨visibleRowAt_zero_toNat c r, fun hj => ?_⟩
  have hnext : (idx + 1) % c.sw < c.sw := Nat.mod_lt _ (by omega)
  rw [visibleRowRotatesTheInvertedPattern c _ r _ hlegal hnext hr,
    visibleRowRotatesTheInvertedPattern c idx r j hlegal hidx hr, sourceBit_advance hidx, decide_eq_true hj,
    decide_eq_true (Nat.lt_of_succ_lt hj)]

end Sys2Proof.Machine

/-! Proofs of 44_bus_commands: MainFlow's routine as one update of the state, what the routines of the commands leave, and
the inputs of the bus that are no command. -/

namespace Sys2Proof.Machine

/-! MainFlow's routine, run to its end (30_encoding R101). -/

/-- What a step of MainFlow does to everything but the list of what is still to do. -/
def MainOp.effect (s : State) : MainOp → State
  | .wrStage r v => setStageRow r.toNat v s
  | .rdStage r => setRdata (stageRow s r.toNat) s
  | .rdVrow r => setRdata (visibleRow s r.toNat) s
  | .rdCtrl => setRdata (ctrlWord s) s
  | .wrCtrlBack keep set => writeCtrlFlags ((s.hpRdata &&& keep) ||| set) s
  | .wrStageBack r keep set => setStageRow r.toNat ((s.hpRdata &&& keep) ||| set) s
  | .commit => requestCommit 1#16 s
  | .advance => advanceIndex s
  | .overlayShown => hostUpdate .overlayShown s
  | .staticDrawn => hostUpdate .staticDrawn s

/-- The effects of a list of MainFlow's steps, in order. -/
def afterOps (ops : List MainOp) (s : State) : State := ops.foldl MainOp.effect s

@[simp] theorem afterOps_nil (s : State) : afterOps [] s = s := rfl

@[simp] theorem afterOps_cons (op : MainOp) (ops : List MainOp) (s : State) :
    afterOps (op :: ops) s = afterOps ops (op.effect s) := rfl

@[simp] theorem afterOps_append (ops ops' : List MainOp) (s : State) :
    afterOps (ops ++ ops') s = afterOps ops' (afterOps ops s) := List.foldl_append

/-- With no input to come, a step with work left is the effect of MainFlow's next step. -/
theorem step_effect {s : State} {op : MainOp} {rest : List MainOp} (hl : legalConfig s.cfg = true)
    (hp : s.tickPend = false) (hinputs : s.inputs = []) (hpending : s.host.pending = op :: rest) :
    step s = .next { op.effect s with host.pending := rest } := by
  rw [step_no_input hl hp hinputs]
  cases op with
  | overlayShown | staticDrawn => exact mainStep_update hpending rfl
  | _ => exact mainStep_op hpending rfl

/-- The effect of a step keeps what the next step needs to be MainFlow's. -/
theorem effect_keeps (op : MainOp) (s : State) :
    (op.effect s).cfg = s.cfg ∧ (op.effect s).tickPend = s.tickPend ∧ (op.effect s).inputs = s.inputs := by
  cases op <;> exact ⟨rfl, rfl, rfl⟩

/-- No step looks at, or changes, the list of what is still to do. -/
theorem effect_withPending (op : MainOp) (s : State) (l : List MainOp) :
    op.effect { s with host.pending := l } = { op.effect s with host.pending := l } := by
  cases op <;> rfl

/-- A routine leaves the configuration, `TICK_PEND` and the inputs to come. -/
theorem afterOps_keeps (ops : List MainOp) (s : State) :
    (afterOps ops s).cfg = s.cfg ∧ (afterOps ops s).tickPend = s.tickPend ∧ (afterOps ops s).inputs = s.inputs := by
  induction ops generalizing s with
  | nil => exact ⟨rfl, rfl, rfl⟩
  | cons op ops ih =>
    obtain ⟨hcfg, htick, hinputs⟩ := effect_keeps op s
    obtain ⟨hcfg', htick', hinputs'⟩ := ih (op.effect s)
    exact ⟨hcfg'.trans hcfg, htick'.trans htick, hinputs'.trans hinputs⟩

@[simp] theorem afterOps_cfg (ops : List MainOp) (s : State) : (afterOps ops s).cfg = s.cfg := (afterOps_keeps ops s).1

@[simp] theorem afterOps_inputs (ops : List MainOp) (s : State) : (afterOps ops s).inputs = s.inputs :=
  (afterOps_keeps ops s).2.2

/-- With no input to come, a routine runs to its end in as many steps as it has, and leaves their effects. -/
theorem runSteps_routine {s : State} (ops : List MainOp) (hl : legalConfig s.cfg = true) (hp : s.tickPend = false)
    (hinputs : s.inputs = []) :
    runSteps ops.length { s with host.pending := ops } = .next { afterOps ops s with host.pending := [] } := by
  induction ops generalizing s with
  | nil => rfl
  | cons op ops ih =>
    obtain ⟨hcfg, htick, hin⟩ := effect_keeps op s
    have hstep := step_effect (s := { s with host.pending := op :: ops }) hl hp hinputs rfl
    rw [effect_withPending] at hstep
    exact (runSteps_next hstep).trans (ih (hcfg ▸ hl) (htick.trans hp) (hin.trans hinputs))

theorem inv_effect {s : State} (h : s.Inv) (op : MainOp) : (op.effect s).Inv := by
  cases op with
  | wrStage r v => exact inv_setStageRow h _ _
  | rdStage r => exact inv_setRdata h _
  | rdVrow r => exact inv_setRdata h _
  | rdCtrl => exact inv_setRdata h _
  | wrCtrlBack keep set => exact inv_writeCtrlFlags h _
  | wrStageBack r keep set => exact inv_setStageRow h _ _
  | commit => exact inv_requestCommit h _
  | advance => exact inv_advanceIndex h
  | overlayShown => exact inv_hostUpdate h .overlayShown
  | staticDrawn => exact inv_hostUpdate h .staticDrawn

theorem inv_afterOps {s : State} (h : s.Inv) (ops : List MainOp) : (afterOps ops s).Inv := by
  induction ops generalizing s with
  | nil => exact h
  | cons op ops ih => exact ih (inv_effect h op)

/-! The flags a routine writes (30_encoding R101). -/

/-- `SET_DISPLAY` leaves `SRC`: it writes back the bit it has read. -/
theorem afterOps_setDisplayOps {s : State} (h : s.Inv) (v : Bool) :
    afterOps (setDisplayOps v) s = { s with dispEn := v, hpRdata := ctrlWord s } := by
  have hdisp := dataBit0_setDisplay v (ctrlWord s)
  have hsrc := src_writeCtrlFlags_setDisplay h v
  simp [setDisplayOps, MainOp.effect, writeCtrlFlags, hdisp, hsrc, setRdata]

/-- `SET_SRC` leaves `DISP_EN`: it writes back the bit it has read. -/
theorem afterOps_setSrcOps (s : State) (v : Bool) :
    afterOps (setSrcOps v) s = { s with src := s.cfg.hasDirectAnim && v, hpRdata := ctrlWord s } := by
  have hdisp : dataBit0 ((ctrlWord s &&& 0xFFFD#16) ||| (bitWord v <<< 1)) = s.dispEn := by
    cases hd : s.dispEn <;> simp [dataBit0, ctrlWord, bitWord, hd]
  have hsrc : dataBit1 ((ctrlWord s &&& 0xFFFD#16) ||| (bitWord v <<< 1)) = v := by
    cases v <;> simp [dataBit1, bitWord]
  simp [setSrcOps, MainOp.effect, writeCtrlFlags, hdisp, hsrc, setRdata]

/-- On leaving a base mode `SRC` goes to 0 exactly if the host is on the direct path and the mode is Animation
(45_host_producers R238). -/
theorem exists_afterOps_leaveBaseOps (s : State) (m : Mode) :
    ∃ v, afterOps (leaveBaseOps s.cfg m) s =
      { s with src := s.src && !(s.cfg.host.directAnim && m == .animation), hpRdata := v } := by
  unfold leaveBaseOps
  split
  next hdirect =>
    refine ⟨ctrlWord s, ?_⟩
    rw [afterOps_setSrcOps, hdirect, Bool.and_false, Bool.not_true, Bool.and_false]
  next hother =>
    refine ⟨s.hpRdata, ?_⟩
    rw [Bool.eq_false_of_not_eq_true hother, Bool.not_false, Bool.and_true, afterOps_nil]

/-! Painting (45_host_producers R222, R229, R230, R234). -/

/-- The steps change only `STAGE` and `hp_rdata`, and leave exactly the pixels `P` of `STAGE` lit. -/
structure Paints (ops : List MainOp) (s : State) (P : Nat → Nat → Prop) : Prop where
  frame : afterOps ops s = { s with stage := (afterOps ops s).stage, hpRdata := (afterOps ops s).hpRdata }
  pixel_iff : ∀ x y : Nat, x < s.cfg.geo.w → y < s.cfg.geo.h → (pixel (afterOps ops s).stage x y = true ↔ P x y)

theorem paints_nil (s : State) : Paints [] s fun x y => pixel s.stage x y = true := ⟨rfl, fun _ _ _ _ => Iff.rfl⟩

/-- Steps that paint go on after others; what they leave is told by what those had left. -/
theorem Paints.append {ops ops' : List MainOp} {s : State} {P Q R : Nat → Nat → Prop} (h : Paints ops s P)
    (h' : Paints ops' (afterOps ops s) Q) (hQ : ∀ x y : Nat, x < s.cfg.geo.w → y < s.cfg.geo.h → (Q x y ↔ R x y)) :
    Paints (ops ++ ops') s R where
  frame := by
    rw [afterOps_append]
    exact h'.frame.trans (congrArg (fun t : State => { t with
      stage := (afterOps ops' (afterOps ops s)).stage, hpRdata := (afterOps ops' (afterOps ops s)).hpRdata }) h.frame)
  pixel_iff x y hx hy := by
    rw [afterOps_append]
    exact (h'.pixel_iff x y (by rwa [afterOps_cfg]) (by rwa [afterOps_cfg])).trans (hQ x y hx hy)

/-- Writing 0 to a row makes its pixels unlit. -/
theorem paints_clearRow {s : State} (h : s.Inv) {r : Nat} (hr : r < s.cfg.geo.h) :
    Paints [.wrStage (rowIx r) 0#16] s fun x y => y ≠ r ∧ pixel s.stage x y = true where
  frame := rfl
  pixel_iff x y _ _ := by
    have hrow : r < s.stage.length := h.stage_length ▸ hr
    have hpixel : pixel (afterOps [.wrStage (rowIx r) 0#16] s).stage x y = _ :=
      pixel_setStageRow ((toNat_rowIx hr).symm ▸ hrow) 0#16 x y
    rw [hpixel, toNat_rowIx hr]
    by_cases hy : y = r <;> simp [hy]

/-- Writing 0 to some rows of the surface makes the pixels of those rows unlit. -/
theorem paints_clearRows {s : State} (h : s.Inv) {rows : List Nat} (hrows : ∀ r ∈ rows, r < s.cfg.geo.h) :
    Paints (rows.map fun r => .wrStage (rowIx r) 0#16) s fun x y => y ∉ rows ∧ pixel s.stage x y = true := by
  induction rows generalizing s with
  | nil => simpa using paints_nil s
  | cons r rows ih =>
    obtain ⟨hr, hrest⟩ := List.forall_mem_cons.mp hrows
    have hclear := paints_clearRow h hr
    refine hclear.append (ih (inv_afterOps h _) hrest) fun x y hx hy => ?_
    rw [hclear.pixel_iff x y hx hy, List.mem_cons, not_or, and_left_comm, and_assoc]

/-- `CLEAR_STAGE` leaves no pixel lit. -/
theorem paints_clearStageOps {s : State} (h : s.Inv) : Paints (clearStageOps s.cfg.geo) s fun _ _ => False := by
  have hclear := paints_clearRows h (rows := List.range s.cfg.geo.h) fun r => List.mem_range.mp
  refine ⟨hclear.frame, fun x y hx hy => (hclear.pixel_iff x y hx hy).trans ?_⟩
  simp [hy]

/-- `PLOT` of a lit pixel lights it, if it is on the surface, and leaves the others. -/
theorem paints_plotOps {s : State} (h : s.Inv) (hinputs : s.inputs = []) (p : Int × Int) :
    Paints (plotOps s.cfg.geo true p) s fun x y => ((x : Int), (y : Int)) = p ∨ pixel s.stage x y = true where
  frame := by
    unfold plotOps
    split <;> rfl
  pixel_iff x y hx hy := by
    have hinv : ({ s with host.pending := plotOps s.cfg.geo true p } : State).Inv :=
      { h with pending_rows := rowsOk_plotOps _ _ _ }
    obtain ⟨u, hrun, -, hpixel, -⟩ := plotWritesOnePixelAndClips _ p.1 p.2 true hinv hinputs rfl
    cases (runSteps_routine _ h.legal h.no_pending_tick hinputs).symm.trans hrun
    have hplotted : pixel (afterOps (plotOps s.cfg.geo true p) s).stage x y = _ := hpixel x y hx hy
    rw [hplotted, Prod.ext_iff]
    by_cases hp : (x : Int) = p.1 ∧ (y : Int) = p.2 <;> simp [hp]

/-- Lit pixels plotted one after the other are lit with those that were lit before. -/
theorem paints_plots {s : State} (h : s.Inv) (hinputs : s.inputs = []) (pixels : List (Int × Int)) :
    Paints (pixels.flatMap (plotOps s.cfg.geo true)) s fun x y =>
      ((x : Int), (y : Int)) ∈ pixels ∨ pixel s.stage x y = true := by
  induction pixels generalizing s with
  | nil => simpa using paints_nil s
  | cons p pixels ih =>
    have hplot := paints_plotOps h hinputs p
    have hrest := ih (inv_afterOps h (plotOps s.cfg.geo true p)) ((afterOps_inputs _ _).trans hinputs)
    rw [afterOps_cfg] at hrest
    refine hplot.append hrest fun x y hx hy => ?_
    rw [hplot.pixel_iff x y hx hy, List.mem_cons, or_left_comm, or_assoc]

/-- A text painted on the cleared surface is all that is lit (45 R222, R229), and a commit is requested. -/
theorem exists_afterOps_paintTextOps {s : State} (h : s.Inv) (hinputs : s.inputs = []) (x y : Int) (text : List Byte) :
    ∃ (stage : List Word) (v : Word),
      afterOps (paintTextOps s.cfg x y text) s = { s with stage := stage, hpRdata := v, creq := true } ∧
      ∀ i j : Nat, i < s.cfg.geo.w → j < s.cfg.geo.h →
        (pixel stage i j = true ↔
          ((i : Int), (j : Int)) ∈ stringPixels s.cfg.host.font x y s.cfg.geo.w s.cfg.geo.h text) := by
  have hclear := paints_clearStageOps h
  have hdraw := paints_plots (inv_afterOps h (clearStageOps s.cfg.geo)) ((afterOps_inputs _ _).trans hinputs)
    (stringPixels s.cfg.host.font x y s.cfg.geo.w s.cfg.geo.h text)
  rw [afterOps_cfg] at hdraw
  have hpaint : Paints (clearStageOps s.cfg.geo ++ drawTextOps s.cfg x y text) s fun i j =>
      ((i : Int), (j : Int)) ∈ stringPixels s.cfg.host.font x y s.cfg.geo.w s.cfg.geo.h text :=
    hclear.append hdraw fun i j hi hj => by rw [hclear.pixel_iff i j hi hj, or_false]
  have hcommit : afterOps (paintTextOps s.cfg x y text) s = requestCommit 1#16 (afterOps _ s) := afterOps_append _ _ _
  rw [hcommit, requestCommit_one]
  exact ⟨_, _, congrArg (fun t : State => { t with creq := true }) hpaint.frame, hpaint.pixel_iff⟩

/-! The commands. -/

/-- Settles O45: the command queues `SET_DISPLAY`, with MainFlow free, and its read and its write are run. -/
theorem setDisplayEnablesOrDisables : Obligations.SetDisplayEnablesOrDisables := by
  intro s b h hfree hinputs
  have hqueued : queueOps (setDisplayOps (boolPayload b)) s =
      { s with host.pending := setDisplayOps (boolPayload b) } := by rw [queueOps, hfree, List.nil_append]
  have hkept : ({ s with host.pending := [] } : State) = s := by rw [← hfree]
  have hrun := runSteps_routine (setDisplayOps (boolPayload b)) h.legal h.no_pending_tick hinputs
  rw [← hqueued, afterOps_setDisplayOps h] at hrun
  exact ⟨_, _, exec_setDisplay_some b s, hqueued ▸ hkept, hrun, boolPayload_eq b, hkept⟩

/-- The routine of an overlay (45 R234, R238): `SRC` is switched, the text is painted and committed, the overlay is
shown. -/
theorem exists_afterOps_overlay {s : State} (h : s.Inv) (hinputs : s.inputs = []) (x y : Int) (text : List Byte) :
    ∃ (stage : List Word) (v : Word),
      afterOps (leaveBaseOps s.cfg s.host.mode ++ paintTextOps s.cfg x y text ++ [.overlayShown]) s =
        { s with
          stage := stage, hpRdata := v, creq := true
          src := s.src && !(s.cfg.host.directAnim && s.host.mode == .animation)
          host.overlayActive := true, host.overlayStartMs := s.nowMs } ∧
      ∀ i j : Nat, i < s.cfg.geo.w → j < s.cfg.geo.h →
        (pixel stage i j = true ↔
          ((i : Int), (j : Int)) ∈ stringPixels s.cfg.host.font x y s.cfg.geo.w s.cfg.geo.h text) := by
  obtain ⟨v, hleave⟩ := exists_afterOps_leaveBaseOps s s.host.mode
  have hinv := inv_afterOps h (leaveBaseOps s.cfg s.host.mode)
  rw [hleave] at hinv
  obtain ⟨stage, v', hpaint, hpixel⟩ := exists_afterOps_paintTextOps hinv hinputs x y text
  refine ⟨stage, v', ?_, hpixel⟩
  rw [afterOps_append, afterOps_append, hleave, hpaint]
  rfl

/-- Settles O51: the command queues the overlay's routine, with MainFlow free, and the routine is run to its end. -/
theorem showTempMessagePaintsTheOverlay : Obligations.ShowTempMessagePaintsTheOverlay := by
  intro s text h hfree hinputs
  have hinv : ({ s with host.overlayText := capText s.cfg text } : State).Inv :=
    { h with overlay_text_le := capText_length_le _ _ }
  obtain ⟨stage, v, hafter, hpixel⟩ :=
    exists_afterOps_overlay hinv hinputs s.cfg.host.overlayX s.cfg.host.overlayY (capText s.cfg text)
  have hqueued : triggerOverlay text s = { s with
      host.overlayText := capText s.cfg text
      host.pending := leaveBaseOps s.cfg s.host.mode ++
        paintTextOps s.cfg s.cfg.host.overlayX s.cfg.host.overlayY (capText s.cfg text) ++ [.overlayShown] } := by
    rw [triggerOverlay, queueOps, hfree, List.nil_append]
  have hrun := runSteps_routine (triggerOverlay text s).host.pending hinv.legal hinv.no_pending_tick hinputs
  rw [hqueued, hafter, ← hqueued] at hrun
  have hhost : { s.host with pending := [] } = s.host := by rw [← hfree]
  refine ⟨_, _, exec_showTempMessage text s, congrArg (fun host => { s with host := host }) hhost, hrun, hpixel, rfl,
    ?_, rfl, rfl, rfl, rfl, rfl, rfl, rfl⟩
  exact congrArg (fun host : HostEnv => { host with
    overlayText := capText s.cfg text, overlayActive := true, overlayStartMs := s.nowMs }) hhost

/-- Settles O48: the share of the range that is taken off is 0 for speed 0, the whole range from 100 up, and grows with the
speed. -/
theorem setScrollSpeedMapsInversely : Obligations.SetScrollSpeedMapsInversely := by
  intro s v
  refine ⟨_, exec_setScrollSpeed_some v s, rfl, fun hrange => ?_⟩
  obtain ⟨hge, hle⟩ := speedInterval_mem hrange v
  refine ⟨rfl, hge, hle, fun hzero => ?_, fun hfull => ?_, fun v2 t2 hv ht2 => ?_⟩
  · simp [speedInterval, hzero]
  · simp only [speedInterval, Nat.min_eq_right hfull]
    omega
  · cases ht2
    exact Nat.sub_le_sub_left (Nat.div_le_div_right (Nat.mul_le_mul_right _ (min_le_min_right 100 hv))) _

/-- The identifiers of the modes (44 R204). -/
theorem modeOfId_eq_some_iff {m : Byte} {k : Mode} :
    modeOfId m = some k ↔ (m.toNat = 0 ∧ k = .animation) ∨ (m.toNat = 1 ∧ k = .scrollingText) ∨
      (m.toNat = 2 ∧ k = .staticText) := by
  simp only [modeOfId, ← BitVec.toNat_inj, BitVec.toNat_ofNat, Nat.reducePow, Nat.reduceMod]
  split_ifs with h0 h1 h2
  · simp [h0, eq_comm]
  · simp [h1, eq_comm]
  · simp [h2, eq_comm]
  · simp [h0, h1, h2]

/-- Settles O49: a known identifier selects its mode, and on the staging path that queues nothing. -/
theorem setDisplayModeSelectsTheProducer : Obligations.SetDisplayModeSelectsTheProducer := by
  intro s m
  refine ⟨fun k hk => ⟨selectMode k s, ?_, rfl, ?_, ?_, ?_, rfl⟩, fun hm => ?_⟩
  · rw [exec_setDisplayMode_some, modeOfId_eq_some_iff.mpr hk]
  · rintro rfl
    exact Bool.or_true _
  · intro hne
    simp [selectMode, hne]
  · intro hstaging
    simp [selectMode, leaveBaseOps, enterBaseOps, hstaging]
  · have hnone : modeOfId m = none := Option.eq_none_iff_forall_ne_some.mpr fun k hk => by
      have := modeOfId_eq_some_iff.mp hk
      omega
    rw [exec_setDisplayMode_some, hnone]

/-! The bus read, the strobes, the clock and the auxiliary pin. -/

theorem takeInput_eq {s : State} {e : Input} {rest : List Input} (hinputs : s.inputs = e :: rest) :
    takeInput s = { s with inputs := rest } := by
  rw [takeInput, hinputs, List.tail_cons]

/-- The status byte is 0 or 1, the level of the pin in the free polarity (44 R205). -/
theorem toNat_statusByte (level : Bool) : (statusByte level).toNat = (level ^^ Config.auxPolarity).toNat := by
  rw [statusByte]
  cases level ^^ Config.auxPolarity <;> rfl

/-- A cycle of the host port, with MainFlow free, is the operation of its strobes (20_memory R61). -/
theorem step_cycle {s : State} {we re : Bool} {a : Addr} {d : Word} {rest : List Input}
    (hl : legalConfig s.cfg = true) (hp : s.tickPend = false) (hfree : s.host.pending = [])
    (hinputs : s.inputs = .cycle we re a d :: rest) : step s = runCycle we re a d { s with inputs := rest } := by
  rw [step_input hl hp hinputs, ← takeInput_eq hinputs]
  simp [acceptInput, whenMainFree, hfree]

/-- Settles O60: each of these inputs is one step, and a cycle's word is the one its strobes say. -/
theorem busReadStrobesClockAndPin : Obligations.BusReadStrobesClockAndPin := by
  refine ⟨Config.auxPolarity, fun s rest a data hl hp => ⟨fun hinputs => ?_, fun re hfree hinputs => ?_,
    fun hfree hinputs => ?_, fun hfree hinputs => ?_, fun ms hinputs => ?_, fun level hinputs => ?_⟩⟩
  · refine ⟨statusByte s.auxPin, toNat_statusByte _, ?_⟩
    rw [step_input hl hp hinputs, acceptInput, takeInput_eq hinputs]
    rfl
  · exact step_cycle hl hp hfree hinputs
  · exact step_cycle hl hp hfree hinputs
  · exact step_cycle hl hp hfree hinputs
  · rw [step_input hl hp hinputs, acceptInput, takeInput_eq hinputs]
  · rw [step_input hl hp hinputs, acceptInput, takeInput_eq hinputs]

end Sys2Proof.Machine

/-! Proofs of 45_host_producers: the messages, what an iteration of the main loop does, and what the routines of the
redraws and of the director's mode changes leave. -/

namespace Sys2Proof.Machine

/-! Messages (45_host_producers R227, R228). -/

/-- Settles O47: the command is the wholesale replacement, and it writes these two host variables. -/
theorem setMessageReplacesTheMessage : Obligations.SetMessageReplacesTheMessage :=
  fun s text => ⟨_, exec_setMessage text s, rfl, rfl, rfl, rfl, rfl⟩

/-- The scroller's new cursor (45 R228). -/
theorem scrollTick_cursor (w : Nat) (m : Message) :
    (scrollTick w m).cursor = if m.cursor - 1 < -(m.width : Int) then (w : Int) else m.cursor - 1 :=
  apply_ite Message.cursor _ _ _

/-- The scroller writes the cursor alone. -/
theorem scrollTick_eq (w : Nat) (m : Message) : scrollTick w m = { m with cursor := (scrollTick w m).cursor } := by
  unfold scrollTick
  split <;> rfl

theorem scrollTick_of_room {w : Nat} {m : Message} (h : -(m.width : Int) ≤ m.cursor - 1) :
    scrollTick w m = { m with cursor := m.cursor - 1 } := if_neg (not_lt.mpr h)

theorem scrollTick_of_end {w : Nat} {m : Message} (h : m.cursor - 1 < -(m.width : Int)) :
    scrollTick w m = { m with cursor := w } := if_pos h

/-- From `W` the cursor goes down by one pixel a call, as far as `-width` (45 R228). -/
theorem scrollTick_iterate {w : Nat} {m : Message} (hm : m.cursor = w) {k : Nat} (hk : k ≤ w + m.width) :
    (scrollTick w)^[k] m = { m with cursor := (w : Int) - k } := by
  induction k with
  | zero => rw [Nat.cast_zero, sub_zero, ← hm]; rfl
  | succ k ih =>
    rw [Function.iterate_succ_apply', ih (by omega), scrollTick_of_room (by dsimp only; omega)]
    congr 1
    push_cast
    ring

/-- Settles O54: the cursor goes down to `-width`, and the call after that wraps. -/
theorem scrollCursorCycles : Obligations.ScrollCursorCycles := by
  intro w m hm
  refine ⟨fun k hk => congrArg Message.cursor (scrollTick_iterate hm hk), ?_⟩
  rw [Function.iterate_succ_apply', scrollTick_iterate hm le_rfl, scrollTick_of_end (by dsimp only; omega), ← hm]

/-! An iteration of the main loop (45_host_producers R235, R236, R239, R241, R242). -/

/-- With MainFlow free, an iteration at the head of the inputs is one step. -/
theorem step_loop {s : State} {rest : List Input} (hl : legalConfig s.cfg = true) (hp : s.tickPend = false)
    (hfree : s.host.pending = []) (hinputs : s.inputs = .loop :: rest) :
    step s = .next (mainLoop { s with inputs := rest }) := by
  rw [step_input hl hp hinputs, ← takeInput_eq hinputs]
  simp [acceptInput, whenMainFree, hfree]

/-- While the overlay is shown and has not expired, the base producer is suspended (45 R236). -/
theorem directorPoll_of_overlay {s : State} (hoverlay : s.host.overlayActive = true)
    (hearly : s.nowMs < s.host.overlayStartMs + s.cfg.host.overlayMs) : directorPoll s = s := by
  have hkept : expireOverlay s = s := by simp [expireOverlay, overlayExpired, elapsed, hearly]
  simp [directorPoll, hkept, hoverlay]

/-- With no overlay the poll is the redraw-due check. -/
theorem directorPoll_of_base {s : State} (hbase : s.host.overlayActive = false) : directorPoll s = redrawIfDue s := by
  have hkept : expireOverlay s = s := by simp [expireOverlay, overlayExpired, hbase]
  simp [directorPoll, hkept, hbase]

/-- The overlay at its end: the flags, and what a direct-path host issues at the revert (45 R235, R238). -/
theorem expireOverlay_of_expired {s : State} (hoverlay : s.host.overlayActive = true)
    (hend : s.host.overlayStartMs + s.cfg.host.overlayMs ≤ s.nowMs) :
    expireOverlay s = queueOps (enterBaseOps s.cfg s.host.mode)
      { s with host.overlayActive := false, host.changed := true } := by
  simp [expireOverlay, overlayExpired, elapsed, hoverlay, hend]

theorem redrawIfDue_of_early {s : State} (h : s.nowMs < s.host.lastDrawMs + s.host.intervalMs) : redrawIfDue s = s := by
  simp [redrawIfDue, elapsed, h]

theorem redrawIfDue_of_due {s : State} (h : s.host.lastDrawMs + s.host.intervalMs ≤ s.nowMs) :
    redrawIfDue s = redraw { s with host.lastDrawMs := s.nowMs } := by
  simp [redrawIfDue, elapsed, h]

theorem mainLoop_of_nothing_due {s : State}
    (h : s.dispEn = false ∨
      (s.host.overlayActive = true ∧ s.nowMs < s.host.overlayStartMs + s.cfg.host.overlayMs) ∨
      (s.host.overlayActive = false ∧ s.nowMs < s.host.lastDrawMs + s.host.intervalMs)) : mainLoop s = s := by
  unfold mainLoop
  split
  next hdisp =>
    obtain hoff | ⟨hoverlay, hearly⟩ | ⟨hbase, hearly⟩ := h
    · exact absurd (hoff.symm.trans hdisp) Bool.false_ne_true
    · exact directorPoll_of_overlay hoverlay hearly
    · exact (directorPoll_of_base hbase).trans (redrawIfDue_of_early hearly)
  next => rfl

theorem mainLoop_of_due {s : State} (hdisp : s.dispEn = true) (hbase : s.host.overlayActive = false)
    (hdue : s.host.lastDrawMs + s.host.intervalMs ≤ s.nowMs) :
    mainLoop s = redraw { s with host.lastDrawMs := s.nowMs } := by
  rw [mainLoop, if_pos hdisp, directorPoll_of_base hbase, redrawIfDue_of_due hdue]

/-- Settles O52: each of the three reasons leaves the main loop nothing to do. -/
theorem mainLoopWithNothingDueChangesNothing : Obligations.MainLoopWithNothingDueChangesNothing :=
  fun s rest hl hp hfree hinputs hnothing => (step_loop hl hp hfree hinputs).trans
    (congrArg Host.Outcome.next (mainLoop_of_nothing_due (s := { s with inputs := rest }) hnothing))

/-! Redraws that are due (45_host_producers R229, R230, R237, R241). -/

/-- The state in which a due redraw starts: the iteration is taken, and the redraw is dated now (45 R241). -/
def redrawStart (s : State) : State := { s with inputs := [], host.lastDrawMs := s.nowMs }

theorem inv_redrawStart {s : State} (h : s.Inv) : (redrawStart s).Inv := { h with }

/-- A due iteration with no overlay is the redraw of the mode. -/
theorem step_redraw {s : State} (h : s.Inv) (hfree : s.host.pending = []) (hinputs : s.inputs = [.loop])
    (hdisp : s.dispEn = true) (hbase : s.host.overlayActive = false)
    (hdue : s.host.lastDrawMs + s.host.intervalMs ≤ s.nowMs) : step s = .next (redraw (redrawStart s)) :=
  (step_loop h.legal h.no_pending_tick hfree hinputs).trans
    (congrArg Host.Outcome.next (mainLoop_of_due (s := { s with inputs := [] }) hdisp hbase hdue))

/-- With MainFlow free, what is queued is all that it has to do. -/
theorem queueOps_of_free {s : State} (hfree : s.host.pending = []) (ops : List MainOp) :
    queueOps ops s = { s with host.pending := ops } := by rw [queueOps, hfree, List.nil_append]

/-- With no input to come, MainFlow runs what it has still to do to its end, and leaves the effects. -/
theorem runSteps_pending {t : State} {ops : List MainOp} (hl : legalConfig t.cfg = true) (hp : t.tickPend = false)
    (hinputs : t.inputs = []) (hops : t.host.pending = ops) :
    runSteps t.host.pending.length t = .next { afterOps ops t with host.pending := [] } := by
  subst hops
  exact runSteps_routine t.host.pending hl hp hinputs

/-- A routine that paints a text leaves exactly the pixels of the text on `STAGE` and a commit requested; `ops`, what it
does after that, starts there. -/
theorem exists_runSteps_paintText {t : State} {x y : Int} {text : List Byte} {ops : List MainOp} (h : t.Inv)
    (hinputs : t.inputs = []) (hops : t.host.pending = paintTextOps t.cfg x y text ++ ops) :
    ∃ (stage : List Word) (v : Word),
      runSteps t.host.pending.length t = .next
        { afterOps ops { t with stage := stage, hpRdata := v, creq := true } with host.pending := [] } ∧
      ∀ i j : Nat, i < t.cfg.geo.w → j < t.cfg.geo.h →
        (pixel stage i j = true ↔
          ((i : Int), (j : Int)) ∈ stringPixels t.cfg.host.font x y t.cfg.geo.w t.cfg.geo.h text) := by
  obtain ⟨stage, v, hpaint, hpixel⟩ := exists_afterOps_paintTextOps h hinputs x y text
  have hrun := runSteps_pending h.legal h.no_pending_tick hinputs hops
  rw [afterOps_append, hpaint] at hrun
  exact ⟨stage, v, hrun, hpixel⟩

/-- Settles O55: the redraw moves the cursor and queues the painting of the message there, which is run to its end. -/
theorem scrollingRedrawPaintsTheMessage : Obligations.ScrollingRedrawPaintsTheMessage := by
  intro s h hfree hinputs hdisp hbase hmode hdue
  have hredraw : redraw (redrawStart s) = redrawScrolling (redrawStart s) := by rw [redraw, redrawStart, hmode]
  have hstep := step_redraw h hfree hinputs hdisp hbase hdue
  have hinv := inv_redrawScrolling (inv_redrawStart h)
  rw [hredraw] at hstep
  have hops : (redrawScrolling (redrawStart s)).host.pending = paintTextOps s.cfg
      (scrollTick s.cfg.geo.w s.host.msg).cursor s.cfg.host.textY s.host.msg.text ++ [] := by
    rw [List.append_nil, ← scrollTick_text s.cfg.geo.w]
    exact congrArg (· ++ _) hfree
  obtain ⟨stage, v, hrun, hpixel⟩ := exists_runSteps_paintText hinv rfl hops
  refine ⟨_, _, hstep, hrun, scrollTick_cursor _ _, ?_, hpixel, rfl, rfl, rfl, rfl, rfl, rfl, rfl, rfl⟩
  change { s.host with
    msg := { scrollTick s.cfg.geo.w s.host.msg with cursor := s.host.msg.cursor }
    lastDrawMs := s.nowMs
    pending := [] } = { s.host with lastDrawMs := s.nowMs }
  rw [scrollTick_eq, ← hfree]

/-- Settles O56: without the flag the redraw queues nothing; with it, the painting of the message and the clearing of the
flag, which are run to their end. -/
theorem staticRedrawOnlyWhenChanged : Obligations.StaticRedrawOnlyWhenChanged := by
  intro s h hfree hinputs hdisp hbase hmode hdue
  have hredraw : redraw (redrawStart s) = redrawStatic (redrawStart s) := by rw [redraw, redrawStart, hmode]
  have hstep := step_redraw h hfree hinputs hdisp hbase hdue
  have hinv := inv_redrawStatic (inv_redrawStart h)
  rw [hredraw] at hstep
  refine ⟨fun hsame => ?_, fun hchanged => ?_⟩
  · rw [hstep, redrawStatic, redrawStart, hsame]
    rfl
  · have hqueued : redrawStatic (redrawStart s) =
        queueOps (paintTextOps s.cfg s.cfg.host.staticX s.cfg.host.staticY s.host.msg.text ++ [.staticDrawn])
          (redrawStart s) := if_pos hchanged
    rw [hqueued, queueOps_of_free (s := redrawStart s) hfree] at hstep hinv
    obtain ⟨stage, v, hrun, hpixel⟩ := exists_runSteps_paintText hinv rfl rfl
    refine ⟨_, _, hstep, hrun, ?_, hpixel, rfl, rfl, rfl, rfl, rfl, rfl, rfl, rfl⟩
    change { s.host with lastDrawMs := s.nowMs, changed := false, pending := [] } = _
    rw [← hfree]

/-! Painting the animation (30_encoding R101, 45_host_producers R237). -/

/-- A visible row has `W` bits, so a row register takes it whole (43 R186). -/
theorem rowData_visibleRow (s : State) (r : Nat) : rowData s.cfg.geo (visibleRow s r) = visibleRow s r := by
  apply BitVec.eq_of_toNat_eq
  rw [toNat_rowData, visibleRow, visibleRowAt_toNat, Nat.mod_mod]

/-- One row of `PAINT_ANIM`: `t = RD_VROW r; WR_STAGE r, t`. -/
def copyRowOps (r : Nat) : List MainOp := [.rdVrow (rowIx r), .wrStageBack (rowIx r) 0xFFFF#16 0#16]

theorem paintAnimOps_eq (g : Geometry) : paintAnimOps g = (List.range g.h).flatMap copyRowOps := rfl

theorem afterOps_copyRowOps (s : State) {r : Nat} (hr : r < s.cfg.geo.h) :
    afterOps (copyRowOps r) s = setStageRow r (visibleRow s r) (setRdata (visibleRow s r) s) := by
  have hwhole : visibleRow s r &&& 0xFFFF#16 ||| 0#16 = visibleRow s r := BitVec.or_zero.trans BitVec.and_allOnes
  simp [copyRowOps, MainOp.effect, toNat_rowIx hr, hwhole]

/-- Copying some rows of the surface makes those rows of `STAGE` the visible rows and leaves the others. -/
theorem exists_afterOps_copyRows {s : State} (h : s.Inv) {rows : List Nat} (hrows : ∀ r ∈ rows, r < s.cfg.geo.h) :
    ∃ (stage : List Word) (v : Word),
      afterOps (rows.flatMap copyRowOps) s = { s with stage := stage, hpRdata := v } ∧
      ∀ y, stage.getD y 0 = if y ∈ rows then visibleRow s y else stageRow s y := by
  induction rows generalizing s with
  | nil => exact ⟨s.stage, s.hpRdata, rfl, fun y => rfl⟩
  | cons r rows ih =>
    obtain ⟨hr, hrest⟩ := List.forall_mem_cons.mp hrows
    have hlength : r < s.stage.length := h.stage_length ▸ hr
    have hinv := inv_afterOps h (copyRowOps r)
    rw [afterOps_copyRowOps s hr] at hinv
    obtain ⟨stage, v, hafter, hstage⟩ := ih hinv hrest
    rw [List.flatMap_cons, afterOps_append, afterOps_copyRowOps s hr]
    refine ⟨stage, v, hafter, fun y => (hstage y).trans ?_⟩
    rw [stageRow_setStageRow (s := setRdata (visibleRow s r) s) hlength, setRdata_cfg, rowData_visibleRow]
    by_cases hy : y = r
    · subst hy
      simp [visibleRow]
    · simp [hy, visibleRow, stageRow]

/-- `PAINT_ANIM` makes every row of `STAGE` the visible row. -/
theorem exists_afterOps_paintAnimOps {s : State} (h : s.Inv) :
    ∃ (stage : List Word) (v : Word),
      afterOps (paintAnimOps s.cfg.geo) s = { s with stage := stage, hpRdata := v } ∧
      ∀ r < s.cfg.geo.h, stage.getD r 0 = visibleRow s r := by
  obtain ⟨stage, v, hafter, hstage⟩ := exists_afterOps_copyRows h fun r => List.mem_range.mp
  rw [paintAnimOps_eq]
  exact ⟨stage, v, hafter, fun r hr => (hstage r).trans (if_pos (List.mem_range.mpr hr))⟩

/-- Settles O57: the redraw queues the advance alone on the direct path, and with it the painting of the visible rows and
the commit on the staging path. -/
theorem animationRedrawPaintsTheVisibleRows : Obligations.AnimationRedrawPaintsTheVisibleRows := by
  intro s h hfree hinputs hdisp hbase hmode hdue
  have hredraw : redraw (redrawStart s) = redrawAnimation (redrawStart s) := by rw [redraw, redrawStart, hmode]
  have hstep := step_redraw h hfree hinputs hdisp hbase hdue
  have hinv := inv_redrawAnimation (inv_redrawStart h)
  rw [hredraw] at hstep
  have hhost : { s.host with lastDrawMs := s.nowMs, pending := [] } = { s.host with lastDrawMs := s.nowMs } := by
    rw [← hfree]
  cases hpath : s.cfg.host.directAnim with
  | true =>
    have hdirect : redrawAnimation (redrawStart s) = queueOps [.advance] (redrawStart s) := if_pos hpath
    rw [hdirect, queueOps_of_free (s := redrawStart s) hfree] at hstep hinv
    have hrun := runSteps_pending hinv.legal hinv.no_pending_tick rfl rfl
    exact ⟨_, _, hstep, hrun, rfl, hhost, rfl, rfl, rfl, rfl, rfl, rfl, nofun, fun _ => ⟨rfl, rfl⟩⟩
  | false =>
    have hstaging : redrawAnimation (redrawStart s) =
        queueOps (.advance :: paintAnimOps s.cfg.geo ++ [.commit]) (redrawStart s) :=
      if_neg (Bool.eq_false_iff.mp hpath)
    rw [hstaging, queueOps_of_free (s := redrawStart s) hfree] at hstep hinv
    obtain ⟨stage, v, hpaint, hstage⟩ := exists_afterOps_paintAnimOps (inv_advanceIndex hinv)
    have hrun := runSteps_pending hinv.legal hinv.no_pending_tick rfl rfl
    have hafter : afterOps (.advance :: paintAnimOps s.cfg.geo ++ [.commit]) _ = _ :=
      (afterOps_append _ _ _).trans (congrArg (requestCommit 1#16) hpaint)
    rw [hafter, requestCommit_one] at hrun
    exact ⟨_, _, hstep, hrun, rfl, hhost, rfl, rfl, rfl, rfl, rfl, rfl, fun _ => ⟨hstage, rfl⟩, nofun⟩

/-! The direct path's `SRC` (45_host_producers R238). -/

/-- A routine that begins with `SET_SRC v` and then only advances the index, if anything, leaves `SRC` as `v`, the display
enable, both surfaces and `CREQ` as they were. -/
theorem exists_runSteps_setSrc {s : State} {host : HostEnv} {v : Bool} {ops : List MainOp}
    (hl : legalConfig s.cfg = true) (hp : s.tickPend = false) (hinputs : s.inputs = [])
    (hpattern : s.cfg.hasDirectAnim = true) (hpending : host.pending = setSrcOps v ++ ops)
    (hops : ops = [] ∨ ops = [.advance]) :
    ∃ u, runSteps host.pending.length { s with host := host } = .next u ∧ u.host.pending = [] ∧ u.src = v ∧
      u.dispEn = s.dispEn ∧ u.stage = s.stage ∧ u.active = s.active ∧ u.creq = s.creq := by
  have hrun := runSteps_pending (t := { s with host := host }) hl hp hinputs hpending
  rw [afterOps_append, afterOps_setSrcOps, hpattern, Bool.true_and] at hrun
  refine ⟨_, hrun, rfl, ?_⟩
  rcases hops with rfl | rfl <;> exact ⟨rfl, rfl, rfl, rfl, rfl⟩

/-- On the direct path, a mode change into or out of Animation is one `SET_SRC`. -/
theorem modeChangeOps_of_direct {c : Config} (hdirect : c.host.directAnim = true) {m k : Mode}
    (h : m = .animation ↔ k ≠ .animation) :
    leaveBaseOps c m ++ enterBaseOps c k = setSrcOps (decide (k = .animation)) := by
  by_cases hk : k = .animation
  · have hm : m ≠ .animation := fun hm => h.mp hm hk
    simp [leaveBaseOps, enterBaseOps, hdirect, hm, hk]
  · simp [leaveBaseOps, enterBaseOps, hdirect, h.mpr hk, hk]

/-- Settles O50: the identifier selects a mode on the other side of Animation, and the command queues that `SET_SRC`. -/
theorem directPathHostSwitchesTheSource : Obligations.DirectPathHostSwitchesTheSource := by
  intro s m h hfree hinputs hdirect hpattern hbase hm
  obtain ⟨k, hk, hid, hswitch⟩ : ∃ k, modeOfId m = some k ∧ (k = .animation ↔ m.toNat = 0) ∧
      (s.host.mode = .animation ↔ k ≠ .animation) := by
    simp only [modeOfId_eq_some_iff]
    rcases hm with ⟨h0, hmode⟩ | ⟨h1 | h2, hmode⟩
    · exact ⟨.animation, by simp [h0], by simp [h0], by simp [hmode]⟩
    · exact ⟨.scrollingText, by simp [h1], by simp [h1], by simp [hmode]⟩
    · exact ⟨.staticText, by simp [h2], by simp [h2], by simp [hmode]⟩
  have hne : k ≠ s.host.mode := by
    rintro rfl
    exact iff_not_self hswitch
  have hpending : (selectMode k s).host.pending = setSrcOps (decide (m.toNat = 0)) ++ [] := by
    simp only [selectMode, hbase, beq_eq_false_iff_ne.mpr hne, queueOps_host, hfree, Bool.or_self, Bool.false_eq_true,
      if_false, List.nil_append, modeChangeOps_of_direct hdirect hswitch, hid, List.append_nil]
  obtain ⟨u, hrun, hend, hsrc, hdisp, hstage, hactive, hcreq⟩ :=
    exists_runSteps_setSrc h.legal h.no_pending_tick hinputs hpattern hpending (.inl rfl)
  rw [hpending] at hrun
  refine ⟨selectMode k s, u, ?_, hrun, hsrc, hdisp, hend, hstage, hactive, hcreq⟩
  rw [exec_setDisplayMode_some, hk]

/-! The end of the overlay (45_host_producers R235, R238, R240). -/

/-- A redraw leaves the director's state and the content-changed flag. -/
theorem redrawIfDue_keeps (s : State) :
    (redrawIfDue s).host.overlayActive = s.host.overlayActive ∧ (redrawIfDue s).host.changed = s.host.changed ∧
      (redrawIfDue s).host.mode = s.host.mode := by
  unfold redrawIfDue redraw
  split
  · split
    · unfold redrawAnimation
      split <;> exact ⟨rfl, rfl, rfl⟩
    · exact ⟨rfl, rfl, rfl⟩
    · unfold redrawStatic
      split <;> exact ⟨rfl, rfl, rfl⟩
  · exact ⟨rfl, rfl, rfl⟩

/-- A redraw in Animation mode on the direct path queues at most the advance (45 R238). -/
theorem exists_pending_redrawIfDue {s : State} (hdirect : s.cfg.host.directAnim = true)
    (hmode : s.host.mode = .animation) :
    ∃ ops, (redrawIfDue s).host.pending = s.host.pending ++ ops ∧ (ops = [] ∨ ops = [.advance]) := by
  unfold redrawIfDue
  split
  · exact ⟨[.advance], by simp [redraw, hmode, redrawAnimation, hdirect], .inr rfl⟩
  · exact ⟨[], (List.append_nil _).symm, .inl rfl⟩

/-- The state a poll goes on from when it has ended the overlay, with MainFlow free (45 R235, R238). -/
def overlayEnded (s : State) (rest : List Input) : State :=
  { s with
    inputs := rest
    host.overlayActive := false
    host.changed := true
    host.pending := enterBaseOps s.cfg s.host.mode }

/-- The poll that ends the overlay goes on with the redraw-due check. -/
theorem mainLoop_of_expired {s : State} (rest : List Input) (hfree : s.host.pending = []) (hdisp : s.dispEn = true)
    (hoverlay : s.host.overlayActive = true) (hend : s.host.overlayStartMs + s.cfg.host.overlayMs ≤ s.nowMs) :
    mainLoop { s with inputs := rest } = redrawIfDue (overlayEnded s rest) := by
  have hexpire : expireOverlay { s with inputs := rest } = overlayEnded s rest :=
    (expireOverlay_of_expired (s := { s with inputs := rest }) hoverlay hend).trans
      (queueOps_of_free (s := { s with inputs := rest, host.overlayActive := false, host.changed := true }) hfree _)
  rw [mainLoop, if_pos hdisp, directorPoll, hexpire]
  rfl

/-- Settles O53: the poll ends the overlay, and what it queues is the `SET_SRC` of the revert and the redraw if one is
due. -/
theorem overlayExpires : Obligations.OverlayExpires := by
  intro s rest hl hp hfree hinputs hdisp hoverlay hend
  have hstep : step s = .next { overlayEnded s rest with host := (redrawIfDue (overlayEnded s rest)).host } := by
    rw [step_loop hl hp hfree hinputs, mainLoop_of_expired rest hfree hdisp hoverlay hend, ← redrawIfDue_eq_host]
  obtain ⟨hactive, hchanged, hmode⟩ := redrawIfDue_keeps (overlayEnded s rest)
  refine ⟨_, hstep, hactive, hchanged, hmode, fun hearly => ?_, fun hdirect hpattern hanim hrest => ?_⟩
  · rw [redrawIfDue_of_early (s := overlayEnded s rest) hearly]
    have hhost : { s.host with overlayActive := true, pending := [] } = s.host := by rw [← hoverlay, ← hfree]
    refine ⟨congrArg (fun host => { s with inputs := rest, host := host }) hhost, fun hother => if_neg ?_⟩
    simp only [Bool.and_eq_true, beq_iff_eq, not_and]
    rcases hother with hstaging | hmode
    · simp [hstaging]
    · exact fun _ => hmode
  · obtain ⟨ops, hpending, hops⟩ := exists_pending_redrawIfDue (s := overlayEnded s rest) hdirect hanim
    have henter : (overlayEnded s rest).host.pending = setSrcOps true := if_pos (by simp [hdirect, hanim])
    rw [henter] at hpending
    obtain ⟨u, hrun, hdone, hsrc, hdispEn, hkept⟩ :=
      exists_runSteps_setSrc (s := overlayEnded s rest) hl hp hrest hpattern hpending hops
    exact ⟨u, hrun, hdone, hsrc, hdispEn.trans hdisp, hkept⟩

end Sys2Proof.Machine

/-! Proofs of 60_exceptions: no step of a legal machine is without an answer, and a tick falls into a running routine. -/

namespace Sys2Proof.Machine

/-- A legal machine's step hands over to something that answers, in every state (60_exceptions R260, R283). -/
theorem exists_step_next {s : State} (h : legalConfig s.cfg = true) : ∃ t, step s = .next t := by
  obtain ⟨run, ⟨t, ht, -⟩, hstep⟩ := exists_answersBlind_step s
  exact ⟨t, (hstep s h rfl rfl).trans ht⟩

/-- Settles O13: what a legal machine's step hands over to answers, and an illegal configuration is refused before that. -/
theorem everyStepOfALegalMachineAnswers : Obligations.EveryStepOfALegalMachineAnswers :=
  fun _ => ⟨exists_step_next, step_illegal⟩

/-- Tick entry takes back a request that has just been set, and changes nothing else (10_state R42, 60_exceptions R268). -/
theorem enterTick_of_just_requested {s : State} (hp : s.tickPend = false) (rest : List Input) :
    enterTick { s with inputs := rest, tickPend := true } = { s with inputs := rest } := by
  simp [enterTick, hp]

/-- Settles O11: the step is the tick of the state with the pulse taken, and a tick keeps what MainFlow holds. -/
theorem tickPreemptsARunningRoutine : Obligations.TickPreemptsARunningRoutine := by
  intro s rest h hinputs
  have hstep : step s = .next (tickBody { s with inputs := rest }) := step_tickReq h.legal h.no_pending_tick hinputs
  have hkept := keptByTicks_tickBody s rest
  refine ⟨?_, _, hstep, hkept.host, hkept.hpRdata, by rw [tickBody_eq], ?_⟩
  · rw [hstep, exec_tick, enterTick_of_just_requested h.no_pending_tick]
  · rw [tickBody_eq]
    exact h.no_pending_tick

end Sys2Proof.Machine

/-! Proofs of 70_reset_and_hazards: MainFlow is one sequential agent, and `rst` waits for nothing. -/

namespace Sys2Proof.Machine

/-- An input that MainFlow has to handle waits behind a routine to go on with (70_reset R302, 44_bus_commands R200). -/
theorem acceptInput_waits {s : State} {e : Input} {op : MainOp} {ops : List MainOp} (hmain : e.forMain = true)
    (hops : s.host.pending = op :: ops) : acceptInput e s = mainStep s := by
  have hwaits (run : State → Result) : whenMainFree run s = mainStep s := by rw [whenMainFree, hops]
  cases e with
  | op f =>
    cases f with
    | word _ | bus _ => exact hwaits _
    | tickReq | rst => cases hmain
  | cycle _ _ _ _ => exact hwaits _
  | loop => exact hwaits fun t => .next (mainLoop t)
  | busRead | go | clock _ | aux _ => cases hmain

/-- MainFlow's step is the effect of its next operation, which it strikes off. -/
theorem mainStep_effect {s : State} {op : MainOp} {ops : List MainOp} (hops : s.host.pending = op :: ops) :
    mainStep s = .next { op.effect s with host.pending := ops } := by
  cases op with
  | overlayShown | staticDrawn => exact mainStep_update hops rfl
  | _ => exact mainStep_op hops rfl

/-- Settles O10: the input waits, so the step is MainFlow's, and the effect of an operation keeps the inputs. -/
theorem mainFlowInputsWaitForItsRoutine : Obligations.MainFlowInputsWaitForItsRoutine := by
  intro s e rest op ops hl hp hops hinputs hmain
  have hstep : step s = mainStep s := (step_input hl hp hinputs).trans (acceptInput_waits hmain hops)
  obtain ⟨-, -, hkept⟩ := effect_keeps op s
  exact ⟨fun _ hi => hstep.trans (mainStep_op hops hi), fun hi => hstep.trans (mainStep_update hops hi),
    _, hstep.trans (mainStep_effect hops), hkept, rfl⟩

/-- Settles O12: `step_rst` asks for nothing but a legal configuration, and reset is power-on with the inputs to come. -/
theorem resetComesBeforeEverything : Obligations.ResetComesBeforeEverything := by
  intro s rest hl hinputs
  have hstep : step s = exec .reset { s with inputs := rest } := takeInput_eq hinputs ▸ step_rst hl hinputs
  exact ⟨hstep, _, hstep.trans (exec_reset _), rfl, rfl⟩

end Sys2Proof.Machine
